-- ==== Sys2Proof/Word.lean ====
section
/-! DEFINITION. The bit vectors of the spec: 00_scope.md R9 (`bits32`, `bits8`, `bits7`, `bits4`). -/

namespace Sys2Proof

/-- A word of the command and response ports (30_encoding.md R56). -/
abbrev Word := BitVec 32

/-- One byte: a frame, a payload byte, a readback (00_scope.md R9 `bits8`). -/
abbrev Byte := BitVec 8

/-- A 7-bit I2C target address (20_memory.md R39). -/
abbrev Addr := BitVec 7

end Sys2Proof
end

