-- ==== Sys2Proof/Config.lean ====
section
/-! DEFINITION. The parameters of 00_scope.md R7 that the source leaves to the implementation. -/

namespace Sys2Proof

/-- P_RESOLVER_ERR (00_scope.md R7, 40_address_resolver.md R85): what a transport error inside a probe does. -/
inductive ResolverErr where
  /-- The candidate is rejected and the scan goes on. -/
  | rejectCandidate
  /-- The whole command ends with TRANSPORT_ERROR. -/
  | propagate
deriving DecidableEq, Repr

/-- The pairs P_PROBE1_BYTES, P_PROBE2_BYTES that R7 and D9 allow: 2 or 4, then 1 or 2 and shorter. -/
inductive ProbeWidths where
  | fourTwo
  | fourOne
  | twoOne
deriving DecidableEq, Repr

/-- P_PROBE1_BYTES. -/
def ProbeWidths.first : ProbeWidths → Nat
  | .fourTwo => 4
  | .fourOne => 4
  | .twoOne => 2

/-- P_PROBE2_BYTES. -/
def ProbeWidths.second : ProbeWidths → Nat
  | .fourTwo => 2
  | .fourOne => 1
  | .twoOne => 1

/-- The parameters that are fixed for one run (00_scope.md R7). -/
structure Params where
  /-- P_T_SETTLE_MS. -/
  settleMs : Nat
  /-- P_T_INIT_MS. -/
  initMs : Nat
  /-- P_PROBE1_BYTES and P_PROBE2_BYTES. -/
  probeWidths : ProbeWidths
  /-- P_RESOLVER_ERR. -/
  resolverErr : ResolverErr
deriving DecidableEq, Repr

/-- The bounds R7 sets on the delays: at least 1 ms and at least 5 ms. -/
def Params.wf (p : Params) : Bool :=
  decide (1 ≤ p.settleMs) && decide (5 ≤ p.initMs)

/-- The spec's own defaults (R7): 1 ms, 5 ms, 4 bytes, 2 bytes, `RejectCandidate`. -/
def Params.default : Params :=
  { settleMs := 1, initMs := 5, probeWidths := .fourTwo, resolverErr := .rejectCandidate }

end Sys2Proof
end

