-- ==== Sys2Proof/Machine/State.lean ====
section
/-! DEFINITION. The state of the bridge (10_state.md R18, R32), its ports as plain data, and its reset state. -/

namespace Sys2Proof.Machine

/-- How a command ends (30_encoding.md R61, 60_exceptions.md R115). -/
inductive Status where
  | ok
  | transportError
  | addressNotFound
  | notInitialized
  | illegalCommand
deriving DecidableEq, Repr

/-- SEQ (10_state.md R25): IDLE = 0, BUSY = 1. -/
inductive Seq where
  | idle
  | busy
deriving DecidableEq, Repr

/-- WIN (10_state.md R29): the candidate window being scanned. -/
inductive Window where
  | a
  | b
deriving DecidableEq, Repr

/-- The transport's answer to a bus write (00_scope.md R8). -/
inductive WriteAnswer where
  | ok
  | error
deriving DecidableEq, Repr

/-- The transport's answer to a bus read (00_scope.md R8). -/
inductive ReadAnswer where
  | ok (b : Byte)
  | error
deriving DecidableEq, Repr

/-- One entry of the record of what crossed the bridge's ports, in order (00_scope.md R5, R16). -/
inductive PortEvent where
  /-- `W(a,n,v)`: the bytes in the order sent; `answer` is `error` for a transaction marked `E`. -/
  | write (a : Addr) (bytes : List Byte) (answer : WriteAnswer)
  /-- `R(a)->r`. -/
  | read (a : Addr) (answer : ReadAnswer)
  /-- `S(ms)`. -/
  | delay (ms : Nat)
  /-- The response word of a command (30_encoding.md R60). -/
  | response (w : Word)
deriving DecidableEq, Repr

/-- A port event the bridge has reached and that is not complete. -/
inductive Request where
  | write (a : Addr) (bytes : List Byte)
  | read (a : Addr)
  | delay (ms : Nat)
deriving DecidableEq, Repr

/-- The two delay requests the bridge makes (60_exceptions.md R126). -/
inductive Delay where
  /-- P_T_SETTLE_MS. -/
  | settle
  /-- P_T_INIT_MS. -/
  | init
deriving DecidableEq, Repr

/-- The four transactions of `Probe(a)` (40_address_resolver.md R80). -/
inductive ProbeStep where
  | writeOnes
  | readFirst
  | writeZero
  | readSecond
deriving DecidableEq, Repr

/-- A state write `x <- v` of a micro-program (00_scope.md R11). -/
inductive RegWrite where
  | addr (a : Addr)
  | addrValid (v : Bool)
  | bl (v : Bool)
  | rs (v : Bool)
  | resultAddr (a : Addr)
  | win (w : Window)
  | cand (a : Addr)
deriving DecidableEq, Repr

/-- A command's micro-program, or what is left of one (10_state.md R25, D26): the statements of the spec's
pseudocode as data. -/
inductive Prog where
  /-- `complete(s)` (00_scope.md R15). -/
  | complete (st : Status)
  /-- `x <- v`. -/
  | set (w : RegWrite) (k : Prog)
  /-- `FRAME <- FrameOf(p)` (41 R92). -/
  | compose (p : Byte) (k : Prog)
  /-- `MemWrite(ADDR, 1, FRAME)`, or with EN set `MemWrite(ADDR, 1, FRAME + 0x04)` (41 R91, R92). -/
  | frameWrite (en : Bool) (k : Prog)
  /-- `Sleep(ms)` (00_scope.md R14). -/
  | sleep (d : Delay) (k : Prog)
  /-- The probe of CAND from the given transaction on, and what follows its two outcomes (40 R80). -/
  | probe (at_ : ProbeStep) (accept reject : Prog)
deriving DecidableEq, Repr

/-- Reasons for which the model stops with a fault. -/
inductive Fault where
  /-- A response word holds a reserved status code 5..15 (93 U14). Raised by the response reader only, never by
  a step. Safe: the bridge never produces such a word. -/
  | reservedStatusCode (code : BitVec 4)
deriving DecidableEq, Repr

/-- Reasons for which the model refuses an instruction. -/
inductive Refusal where
  /-- Raised by exec for an instruction without a meaning. Safe. No arm uses it. -/
  | notModelled (mnemonic : String)
deriving DecidableEq, Repr

/-- The state of one bridge: its registers (10_state.md R18), the parameters of the run (00_scope.md R7), its
ports, and three fields of the model's own. -/
structure State where
  /-- ADDR (R19). -/
  addr : Addr
  /-- ADDR_VALID (R20). -/
  addrValid : Bool
  /-- BL (R21). -/
  bl : Bool
  /-- RS (R22). -/
  rs : Bool
  /-- STATUS (R23). -/
  status : BitVec 4
  /-- RESULT_ADDR (R24). -/
  resultAddr : Addr
  /-- SEQ (R25). -/
  seq : Seq
  /-- SEQ_POS (R26): how many port events of the current command are complete. -/
  seqPos : Nat
  /-- CMD (R27). -/
  cmd : Word
  /-- OPND (R27). -/
  opnd : List Word
  /-- FRAME (R28). -/
  frame : Byte
  /-- CAND (R29). -/
  cand : Addr
  /-- WIN (R29). -/
  win : Window
  /-- D1 (R29). -/
  d1 : BitVec 4
  /-- D2 (R29). -/
  d2 : Byte
  /-- The model's own: what is left of the current command's micro-program (log 7). -/
  prog : Prog
  /-- The model's own: a command word is accepted and operand words are still awaited (log 8). -/
  accepting : Bool
  /-- The parameters of this run (00_scope.md R7); no step writes them (log 3). -/
  params : Params
  /-- Input: the words the host offers on the command port, oldest first (30 R56). -/
  hostWords : List Word
  /-- Input: the transport's answers to the bus writes to come (00_scope.md R8). -/
  writeAnswers : List WriteAnswer
  /-- Input: the transport's answers to the bus reads to come (00_scope.md R8). -/
  readAnswers : List ReadAnswer
  /-- Input: which of the delays to come is still running when the bridge has reached it. `none`: every one completes;
  `some n`: the next `n` complete and the one after them is still running (00_scope.md R14, 70 R147, log 2). -/
  delayHold : Option Nat
  /-- Input: reset is requested (70 R132). -/
  resetPin : Bool
  /-- Output: what crossed the ports, oldest first (00_scope.md R5, R16). -/
  log : List PortEvent
  /-- The model's own: what was in progress when a reset came, oldest first (70 R133, log 9). -/
  abandoned : List Request
deriving DecidableEq, Repr

/-- The empty micro-program: nothing is left to do (log 7). -/
def Prog.nothing : Prog := .complete .ok

/-- The machine right after reset (10_state.md R32, 70 R132), with the default parameters (00_scope.md R7) and
idle ports. SEQ_POS, CMD, OPND, FRAME, CAND, WIN, D1, D2 have no reset value in the spec (log 4). -/
def State.reset : State :=
  { addr := 0
    addrValid := false
    bl := false
    rs := false
    status := 0
    resultAddr := 0
    seq := .idle
    seqPos := 0
    cmd := 0
    opnd := []
    frame := 0
    cand := 0
    win := .a
    d1 := 0
    d2 := 0
    prog := Prog.nothing
    accepting := false
    params := Params.default
    hostWords := []
    writeAnswers := []
    readAnswers := []
    delayHold := none
    resetPin := false
    log := []
    abandoned := [] }

end Sys2Proof.Machine
end

