-- ==== Sys2Proof/Machine/Flags.lean ====
section
/-! DEFINITION. The two flags and the nibble frame they enter (10_state.md R30, 30_encoding.md R67, 41 R90). -/

namespace Sys2Proof.Machine

/-- The backlight bit of a frame (30 R67). -/
def blBit : Byte := 0x08#8

/-- The register-select bit of a frame (30 R67). -/
def rsBit : Byte := 0x01#8

/-- The enable bit of a frame (30 R67). -/
def enBit : Byte := 0x04#8

/-- `FrameOf(p)` for the flags BL and RS (41 R90). -/
def frameOf (bl rs : Bool) (p : Byte) : Byte :=
  (p &&& 0xF0#8) ||| (if bl then blBit else 0x00#8) ||| (if rs then rsBit else 0x00#8)

/-- The byte a frame write sends: FRAME, or FRAME + 0x04 in the middle write of a strobe (41 R92). -/
def strobeByte (en : Bool) (f : Byte) : Byte := if en then f + enBit else f

/-- The code of a status (30 R61). -/
def Status.code : Status → BitVec 4
  | .ok => 0
  | .transportError => 1
  | .addressNotFound => 2
  | .notInitialized => 3
  | .illegalCommand => 4

/-- The status of a code; none for the reserved codes 5..15 (30 R61). -/
def statusOfCode (c : BitVec 4) : Option Status :=
  match c.toNat with
  | 0 => some .ok
  | 1 => some .transportError
  | 2 => some .addressNotFound
  | 3 => some .notInitialized
  | 4 => some .illegalCommand
  | _ => none

end Sys2Proof.Machine
end

