-- ==== Sys2Proof/Machine/Operands.lean ====
section
/-! DEFINITION. The values computed from operands: the cursor byte (42 R103), decimal text (42 R105), the byte
order of a bus write (00_scope.md R12, 20 R43). -/

namespace Sys2Proof.Machine

/-- `Cursor(col, row)`, the sum taken modulo 256 (42 R103). -/
def cursor (col row : Byte) : Byte := (if row ≠ 0 then 0xC0#8 else 0x80#8) + col

/-- The ASCII byte of a decimal digit (42 R105). -/
def digitByte (d : Nat) : Byte := BitVec.ofNat 8 (0x30 + d)

/-- The decimal digits of `n` in front of `acc`, at most `fuel` of them. -/
def decDigits : Nat → Nat → List Byte → List Byte
  | 0, _, acc => acc
  | fuel + 1, n, acc =>
    if n < 10 then digitByte n :: acc else decDigits fuel (n / 10) (digitByte (n % 10) :: acc)

/-- `Dec` of a natural number below 10^10, which every magnitude of a 32-bit number is (42 R105). -/
def decNat (n : Nat) : List Byte := decDigits 10 n []

/-- `Dec(n)` with `n = sext_32(N)` (42 R105, 30 R63); the minus sign is 0x2D. -/
def dec (n : Word) : List Byte :=
  if n.toInt < 0 then 0x2D#8 :: decNat n.toInt.natAbs else decNat n.toInt.natAbs

/-- The `n` bytes of a value, byte `k` being bits `8k+7 : 8k`, in the order sent (00_scope.md R12). -/
def leBytes : Nat → Nat → List Byte
  | 0, _ => []
  | n + 1, v => BitVec.ofNat 8 v :: leBytes n (v / 256)

end Sys2Proof.Machine
end

