-- ==== Sys2Proof/Machine/Response.lean ====
section
/-! DEFINITION. The response word (30_encoding.md R60) and a reader of it (93 U14). -/

namespace Sys2Proof.Machine

/-- The response word of the state as it stands (R60). -/
def responseWord (s : State) : Word :=
  (0#18 : BitVec 18) ++ BitVec.ofBool s.rs ++ BitVec.ofBool s.bl ++ BitVec.ofBool s.addrValid ++ s.resultAddr ++ s.status

/-- What a host reads from a response word. -/
structure Response where
  status : Status
  resultAddr : Addr
  addrValid : Bool
  bl : Bool
  rs : Bool
deriving DecidableEq, Repr

/-- Reading a response word: a reserved status code is a fault of the reader (U14). -/
def readResponse (w : Word) : Except Fault Response :=
  match statusOfCode (w.extractLsb' 0 4) with
  | none => .error (.reservedStatusCode (w.extractLsb' 0 4))
  | some st =>
    .ok { status := st
          resultAddr := w.extractLsb' 4 7
          addrValid := w.getLsbD 11
          bl := w.getLsbD 12
          rs := w.getLsbD 13 }

end Sys2Proof.Machine
end

