-- ==== Sys2Proof/Machine/Ops.lean ====
section
/-! DEFINITION. The shared operations: completion (60 R119), the bus and delay primitives (00_scope.md R12 to R14), the
probe (40 R80), the execution of a micro-program (10 R25), reset (70 R132, R133). -/

namespace Sys2Proof.Machine

/-! ## Completion (60 R119), for every status: the bridge's form of taking an exception -/

/-- STATUS <- the status; the response word is sent with the state as it stands; SEQ <- IDLE (60 R119).
Nothing is undone (60 R121, 00_scope.md R15). -/
def finish (st : Status) (s : State) : State :=
  let s1 := { s with status := st.code }
  { s1 with log := s1.log ++ [.response (responseWord s1)], seq := .idle, prog := Prog.nothing }

/-! ## Port events -/

/-- A port event completes: it enters the record and SEQ_POS advances by 1 (10 R26). -/
def emit (e : PortEvent) (s : State) : State :=
  { s with log := s.log ++ [e], seqPos := s.seqPos + 1 }

/-- What a bus transaction comes to: the transport's answer taken, or no answer yet. -/
inductive BusResult (α : Type) where
  | ok (v : α) (s : State)
  | error (s : State)
  | wait

/-- `MemWrite(a, n, v)`, its bytes given in the order sent (00_scope.md R12). -/
def memWrite (a : Addr) (bytes : List Byte) (s : State) : BusResult Unit :=
  match s.writeAnswers with
  | [] => .wait
  | .ok :: rest => .ok () (emit (.write a bytes .ok) { s with writeAnswers := rest })
  | .error :: rest => .error (emit (.write a bytes .error) { s with writeAnswers := rest })

/-- `MemRead(a, 1)` (00_scope.md R13). -/
def memRead (a : Addr) (s : State) : BusResult Byte :=
  match s.readAnswers with
  | [] => .wait
  | .ok b :: rest => .ok b (emit (.read a (.ok b)) { s with readAnswers := rest })
  | .error :: rest => .error (emit (.read a .error) { s with readAnswers := rest })

/-- `Sleep(ms)` (00_scope.md R14): the delay completes, or it is still running (none). How long a delay runs is left
open (R14, 70 R147): the input `delayHold` decides it for each delay of its own (log 2). -/
def sleepFor (ms : Nat) (s : State) : Option State :=
  match s.delayHold with
  | none => some (emit (.delay ms) s)
  | some 0 => none
  | some (n + 1) => some (emit (.delay ms) { s with delayHold := some n })

/-- The duration of a delay request (60 R126). -/
def delayMs (p : Params) : Delay → Nat
  | .settle => p.settleMs
  | .init => p.initMs

/-! ## The probe of one candidate (40 R80 to R82, R85) -/

/-- The bytes of the all-ones probe write (30 R71). -/
def onesProbe (p : Params) : List Byte :=
  leBytes p.probeWidths.first (2 ^ (8 * p.probeWidths.first) - 1)

/-- The bytes of the zero probe write (30 R71). -/
def zeroProbe (p : Params) : List Byte := leBytes p.probeWidths.second 0

/-- The acceptance condition `D1 == 7 and D2 == 0` (40 R82). -/
def signature (d1 : BitVec 4) (d2 : Byte) : Bool := d1 == 7#4 && d2 == 0#8

/-- What a probe comes to. -/
inductive ProbeResult where
  | accept (s : State)
  | reject (s : State)
  /-- The transport error of a probe raises TransportError (40 R85, `Propagate`). -/
  | raised (s : State)
  /-- No answer yet to the given transaction. -/
  | wait (at_ : ProbeStep) (s : State)

/-- A transport error inside a probe (40 R85). -/
def probeError (s : State) : ProbeResult :=
  match s.params.resolverErr with
  | .rejectCandidate => .reject s
  | .propagate => .raised s

/-- `D2 <- MemRead(a, 1)` and the verdict (40 R80, R82). -/
def probeReadSecond (s : State) : ProbeResult :=
  match memRead s.cand s with
  | .wait => .wait .readSecond s
  | .error s1 => probeError s1
  | .ok b s1 => if signature s1.d1 b then .accept { s1 with d2 := b } else .reject { s1 with d2 := b }

/-- `MemWrite(a, P_PROBE2_BYTES, 0)` and what follows (40 R80). -/
def probeWriteZero (s : State) : ProbeResult :=
  match memWrite s.cand (zeroProbe s.params) s with
  | .wait => .wait .writeZero s
  | .error s1 => probeError s1
  | .ok _ s1 => probeReadSecond s1

/-- `r1 <- MemRead(a, 1); D1 <- r1 mod 16` and what follows (40 R80, R81). -/
def probeReadFirst (s : State) : ProbeResult :=
  match memRead s.cand s with
  | .wait => .wait .readFirst s
  | .error s1 => probeError s1
  | .ok b s1 => probeWriteZero { s1 with d1 := b.extractLsb' 0 4 }

/-- `MemWrite(a, P_PROBE1_BYTES, all ones)` and what follows (40 R80). -/
def probeWriteOnes (s : State) : ProbeResult :=
  match memWrite s.cand (onesProbe s.params) s with
  | .wait => .wait .writeOnes s
  | .error s1 => probeError s1
  | .ok _ s1 => probeReadFirst s1

/-- The probe of CAND from one of its transactions on. -/
def probeFrom : ProbeStep → State → ProbeResult
  | .writeOnes, s => probeWriteOnes s
  | .readFirst, s => probeReadFirst s
  | .writeZero, s => probeWriteZero s
  | .readSecond, s => probeReadSecond s

/-! ## Executing a micro-program (10 R25) -/

/-- `x <- v` (00_scope.md R11). -/
def RegWrite.apply : RegWrite → State → State
  | .addr a, s => { s with addr := a }
  | .addrValid v, s => { s with addrValid := v }
  | .bl v, s => { s with bl := v }
  | .rs v, s => { s with rs := v }
  | .resultAddr a, s => { s with resultAddr := a }
  | .win w, s => { s with win := w }
  | .cand a, s => { s with cand := a }

/-- The bridge stays BUSY with `p` still to do: the port event it has reached is not complete (20 R51, 60 R124). -/
def waitAt (p : Prog) (s : State) : State := { s with seq := .busy, prog := p }

/-- Runs a micro-program until the command completes or a port event is not complete. -/
def runProg : Prog → State → State
  | .complete st, s => finish st s
  | .set w k, s => runProg k (w.apply s)
  | .compose p k, s => runProg k { s with frame := frameOf s.bl s.rs p }
  | .frameWrite en k, s =>
    match memWrite s.addr [strobeByte en s.frame] s with
    | .ok _ s1 => runProg k s1
    | .error s1 => finish .transportError s1
    | .wait => waitAt (.frameWrite en k) s
  | .sleep d k, s =>
    match sleepFor (delayMs s.params d) s with
    | some s1 => runProg k s1
    | none => waitAt (.sleep d k) s
  | .probe at_ acc rej, s =>
    match probeFrom at_ s with
    | .accept s1 => runProg acc s1
    | .reject s1 => runProg rej s1
    | .raised s1 => finish .transportError s1
    | .wait at1 s1 => waitAt (.probe at1 acc rej) s1

/-- A command that needs ADDR: NOT_INITIALIZED while ADDR_VALID = 0 (60 R118, R120). -/
def whenReady (p : Prog) (s : State) : State :=
  if s.addrValid then runProg p s else finish .notInitialized s

/-- The port event the bridge is at, while it is BUSY. -/
def requestOf (s : State) : Prog → Option Request
  | .complete _ => none
  | .set _ _ => none
  | .compose _ _ => none
  | .frameWrite en _ => some (.write s.addr [strobeByte en s.frame])
  | .sleep d _ => some (.delay (delayMs s.params d))
  | .probe .writeOnes _ _ => some (.write s.cand (onesProbe s.params))
  | .probe .readFirst _ _ => some (.read s.cand)
  | .probe .writeZero _ _ => some (.write s.cand (zeroProbe s.params))
  | .probe .readSecond _ _ => some (.read s.cand)

/-- The port event in progress (20 R51). -/
def pendingRequest (s : State) : Option Request :=
  match s.seq with
  | .idle => none
  | .busy => requestOf s s.prog

/-! ## Reset (70 R132 to R134) -/

/-- Reset: every register takes its reset value, the command in execution is abandoned without a response, no port
event is issued; what was in progress is recorded as abandoned (70 R133). Parameters and ports stay. -/
def takeReset (s : State) : State :=
  { State.reset with
    params := s.params
    hostWords := s.hostWords
    writeAnswers := s.writeAnswers
    readAnswers := s.readAnswers
    delayHold := s.delayHold
    log := s.log
    abandoned := s.abandoned ++ (pendingRequest s).toList }

end Sys2Proof.Machine
end

