-- ==== Sys2Proof/Machine/Framer.lean ====
section
/-! DEFINITION. The nibble framer and the command/data encoder (41_nibble_framer.md R91 to R97). -/

namespace Sys2Proof.Machine

/-- `WriteFrame`: one single-byte write to ADDR, then the settle delay (R91). -/
def writeFrame (en : Bool) (k : Prog) : Prog := .frameWrite en (.sleep .settle k)

/-- `SendNibble(p)`: one frame, written three times, the middle write with EN set (R92). -/
def sendNibble (p : Byte) (k : Prog) : Prog :=
  .compose p (writeFrame false (writeFrame true (writeFrame false k)))

/-- `SendCommand(b)`: RS <- 0, then the high nibble and the low nibble (R93). -/
def sendCommand (b : Byte) (k : Prog) : Prog :=
  .set (.rs false) (sendNibble b (sendNibble (b <<< 4) k))

/-- `SendData(b)`: RS <- 1, then the high nibble and the low nibble (R94). -/
def sendData (b : Byte) (k : Prog) : Prog :=
  .set (.rs true) (sendNibble b (sendNibble (b <<< 4) k))

/-- SEND_NIBBLE (R95): the current RS and BL are used. -/
def execSendNibble (p : Byte) (s : State) : Host.Outcome State Fault Refusal :=
  .next (whenReady (sendNibble p (.complete .ok)) s)

/-- SEND_COMMAND (R96). -/
def execSendCommand (b : Byte) (s : State) : Host.Outcome State Fault Refusal :=
  .next (whenReady (sendCommand b (.complete .ok)) s)

/-- SEND_DATA (R97). -/
def execSendData (b : Byte) (s : State) : Host.Outcome State Fault Refusal :=
  .next (whenReady (sendData b (.complete .ok)) s)

end Sys2Proof.Machine
end

