-- ==== Sys2Proof/Machine/Resolver.lean ====
section
/-! DEFINITION. The address resolver (40_address_resolver.md R83, R87). -/

namespace Sys2Proof.Machine

/-- WINDOW_A, `[0x20,0x28)` in ascending order (00_scope.md R7, 40 R83). -/
def windowA : List Addr := [0x20, 0x21, 0x22, 0x23, 0x24, 0x25, 0x26, 0x27]

/-- WINDOW_B, `[0x38,0x40)` in ascending order (00_scope.md R7, 40 R83). -/
def windowB : List Addr := [0x38, 0x39, 0x3A, 0x3B, 0x3C, 0x3D, 0x3E, 0x3F]

/-- Probing the candidates in order: `found a` follows the first accepted one, `k` a scan without one (R83). -/
def scan (found : Addr → Prog) : List Addr → Prog → Prog
  | [], k => k
  | a :: as, k => .set (.cand a) (.probe .writeOnes (found a) (scan found as k))

/-- `Resolve()`: WINDOW_A, then WINDOW_B (R83). -/
def resolver (found : Addr → Prog) (notFound : Prog) : Prog :=
  .set (.win .a) (scan found windowA (.set (.win .b) (scan found windowB notFound)))

/-- `NotFound`: RESULT_ADDR <- 0, ADDRESS_NOT_FOUND (R84, R87, 42 R100). -/
def addressNotFound : Prog := .set (.resultAddr 0) (.complete .addressNotFound)

/-- The micro-program of RESOLVE (R87). -/
def resolveProg : Prog :=
  resolver (fun a => .set (.resultAddr a) (.complete .ok)) addressNotFound

/-- RESOLVE (R87): it runs whatever ADDR_VALID is. -/
def execResolve (s : State) : Host.Outcome State Fault Refusal :=
  .next (runProg resolveProg s)

end Sys2Proof.Machine
end

