-- ==== Sys2Proof/Machine/Display.lean ====
section
/-! DEFINITION. The display operations (42_display_operations.md R100 to R112). -/

namespace Sys2Proof.Machine

/-! ## INIT -/

/-- The bring-up sequence (R100, R101). -/
def bringUp : Prog :=
  sendCommand 0x33 <| .sleep .init <|
  sendNibble 0x30 <| .sleep .init <|
  sendNibble 0x20 <| .sleep .init <|
  sendCommand 0x28 <|
  sendCommand 0x0C <|
  sendCommand 0x06 <|
  sendCommand 0x01 <|
  .complete .ok

/-- INIT once its address is known (R100). -/
def initWith (a : Addr) : Prog :=
  .set (.addr a) <| .set (.addrValid true) <| .set (.resultAddr a) <|
  .set (.bl true) <| .set (.rs false) bringUp

/-- The micro-program of INIT (R100): the operand 0 asks for autodetection. -/
def initProg (a : Addr) : Prog :=
  .set (.addrValid false) (if a = 0 then resolver initWith addressNotFound else initWith a)

/-- INIT (R100). -/
def execInit (a : Addr) (s : State) : Host.Outcome State Fault Refusal :=
  .next (runProg (initProg a) s)

/-! ## Text and numbers -/

/-- `SendData` of each byte in order (R102). -/
def sendText : List Byte → Prog → Prog
  | [], k => k
  | b :: bs, k => sendData b (sendText bs k)

/-- The micro-program of SHOW_STRING (R102). -/
def showStringProg (col row : Byte) (text : List Byte) : Prog :=
  sendCommand (cursor col row) (sendText text (.complete .ok))

/-- SHOW_STRING (R102). -/
def execShowString (col row : Byte) (text : List Byte) (s : State) : Host.Outcome State Fault Refusal :=
  .next (whenReady (showStringProg col row text) s)

/-- SHOW_NUMBER: SHOW_STRING of the decimal text of N, one completion (R104). -/
def execShowNumber (col row : Byte) (n : Word) (s : State) : Host.Outcome State Fault Refusal :=
  .next (whenReady (showStringProg col row (dec n)) s)

/-! ## Display control -/

/-- DISPLAY_ON (R106). -/
def execDisplayOn (s : State) : Host.Outcome State Fault Refusal :=
  .next (whenReady (sendCommand 0x0C (.complete .ok)) s)

/-- DISPLAY_OFF (R107). -/
def execDisplayOff (s : State) : Host.Outcome State Fault Refusal :=
  .next (whenReady (sendCommand 0x08 (.complete .ok)) s)

/-- CLEAR (R108). -/
def execClear (s : State) : Host.Outcome State Fault Refusal :=
  .next (whenReady (sendCommand 0x01 (.complete .ok)) s)

/-- BACKLIGHT_ON: BL <- 1, then the command 0x00 pushes it onto the bus (R109). -/
def execBacklightOn (s : State) : Host.Outcome State Fault Refusal :=
  .next (whenReady (.set (.bl true) (sendCommand 0x00 (.complete .ok))) s)

/-- BACKLIGHT_OFF: BL <- 0, then the command 0x00 (R110). -/
def execBacklightOff (s : State) : Host.Outcome State Fault Refusal :=
  .next (whenReady (.set (.bl false) (sendCommand 0x00 (.complete .ok))) s)

/-- SCROLL_LEFT (R111). -/
def execScrollLeft (s : State) : Host.Outcome State Fault Refusal :=
  .next (whenReady (sendCommand 0x18 (.complete .ok)) s)

/-- SCROLL_RIGHT (R112). -/
def execScrollRight (s : State) : Host.Outcome State Fault Refusal :=
  .next (whenReady (sendCommand 0x1C (.complete .ok)) s)

end Sys2Proof.Machine
end

