-- ==== Sys2Proof/Syntax.lean ====
section
/-! DEFINITION. The commands of the bridge, one constructor per row of spec/opcode_table.json (30_encoding.md R58). -/

namespace Sys2Proof

/-- A legal command with its operands (30_encoding.md R58). -/
inductive Instr where
  /-- INIT: the address operand, 0 = autodetect (42 R100). -/
  | init (a : Addr)
  /-- SHOW_STRING: column, row, the L payload bytes (42 R102, 30 R62). -/
  | showString (col row : Byte) (text : List Byte)
  /-- SHOW_NUMBER: column, row, the operand word N, read as a signed number (42 R104, 30 R63). -/
  | showNumber (col row : Byte) (n : Word)
  /-- DISPLAY_ON (42 R106). -/
  | displayOn
  /-- DISPLAY_OFF (42 R107). -/
  | displayOff
  /-- CLEAR (42 R108). -/
  | clear
  /-- BACKLIGHT_ON (42 R109). -/
  | backlightOn
  /-- BACKLIGHT_OFF (42 R110). -/
  | backlightOff
  /-- SCROLL_LEFT (42 R111). -/
  | scrollLeft
  /-- SCROLL_RIGHT (42 R112). -/
  | scrollRight
  /-- SEND_COMMAND: the command byte (41 R96). -/
  | sendCommand (b : Byte)
  /-- SEND_DATA: the data byte (41 R97). -/
  | sendData (b : Byte)
  /-- SEND_NIBBLE: the payload byte, of which bits 7:4 reach the bus (41 R95). -/
  | sendNibble (p : Byte)
  /-- RESOLVE (40 R87). -/
  | resolve
deriving DecidableEq, Repr

end Sys2Proof
end

