-- ==== Sys2Proof/WellFormed.lean ====
section
/-! DEFINITION. Which commands the encoding can carry. -/

namespace Sys2Proof

/-- MAX_TEXT_LEN, the longest SHOW_STRING payload (00_scope.md R7, 30_encoding.md R62). -/
def maxTextLen : Nat := 4095

/-- The one check the types do not make: a text fits the 12-bit L field (30 R57, R62). -/
def Instr.wf : Instr → Bool
  | .init _ => true
  | .showString _ _ text => decide (text.length ≤ maxTextLen)
  | .showNumber _ _ _ => true
  | .displayOn => true
  | .displayOff => true
  | .clear => true
  | .backlightOn => true
  | .backlightOff => true
  | .scrollLeft => true
  | .scrollRight => true
  | .sendCommand _ => true
  | .sendData _ => true
  | .sendNibble _ => true
  | .resolve => true

end Sys2Proof
end

