-- ==== Sys2Proof/Decode.lean ====
section
/-! DEFINITION. The decoder of 30_encoding.md R57 to R66, total on any words, and the encoder. -/

namespace Sys2Proof

/-! ## Fields of a command word (R57) -/

/-- OP, bits 3:0. -/
def fieldOp (w : Word) : BitVec 4 := w.extractLsb' 0 4

/-- A, bits 11:4. -/
def fieldA (w : Word) : Byte := w.extractLsb' 4 8

/-- A[6:0], bits 10:4: the address operand of INIT (R58). -/
def fieldAddr (w : Word) : Addr := w.extractLsb' 4 7

/-- B, bits 19:12. -/
def fieldB (w : Word) : Byte := w.extractLsb' 12 8

/-- L, bits 31:20. -/
def fieldL (w : Word) : BitVec 12 := w.extractLsb' 20 12

/-- How many operand words follow a command word, from OP and L alone, before any legality check (R64). -/
def operandWords (w : Word) : Nat :=
  match (fieldOp w).toNat with
  | 0x2 => ((fieldL w).toNat + 3) / 4
  | 0x3 => 1
  | _ => 0

/-- Command length in words (R64). -/
def commandLength (w : Word) : Nat := 1 + operandWords w

/-- The mask of an opcode's row (R59, opcode_table.json); none for the reserved opcodes 0x0 and 0xF. -/
def opMask : Nat → Option Word
  | 0x1 => some 0xFFFFF80F#32
  | 0x2 => some 0x0000000F#32
  | 0x3 => some 0xFFF0000F#32
  | 0x4 => some 0xFFFFFFFF#32
  | 0x5 => some 0xFFFFFFFF#32
  | 0x6 => some 0xFFFFFFFF#32
  | 0x7 => some 0xFFFFFFFF#32
  | 0x8 => some 0xFFFFFFFF#32
  | 0x9 => some 0xFFFFFFFF#32
  | 0xA => some 0xFFFFFFFF#32
  | 0xB => some 0xFFFFF00F#32
  | 0xC => some 0xFFFFF00F#32
  | 0xD => some 0xFFFFF00F#32
  | 0xE => some 0xFFFFFFFF#32
  | _ => none

/-! ## Payload bytes (R62) -/

/-- The four bytes of an operand word, byte `i` being bits `8i+7 : 8i` (R62). -/
def wordBytes (w : Word) : List Byte :=
  [w.extractLsb' 0 8, w.extractLsb' 8 8, w.extractLsb' 16 8, w.extractLsb' 24 8]

/-- All bytes of the operand words, in text order. -/
def payloadBytes : List Word → List Byte
  | [] => []
  | w :: ws => wordBytes w ++ payloadBytes ws

/-- The `len` text bytes; bytes of the last word beyond them are ignored (R62). -/
def textOf (len : Nat) (ws : List Word) : List Byte := (payloadBytes ws).take len

/-! ## The decoder -/

/-- Why a sequence of words is no legal command. -/
inductive Reject where
  /-- No word at all. -/
  | noWord
  /-- Fewer operand words than R64 asks for. -/
  | missingOperands
  /-- OP = 0x0 or OP = 0xF (R65). -/
  | reservedOpcode
  /-- A nonzero reserved field (R65). -/
  | reservedField
deriving DecidableEq, Repr

/-- What the decoder answers. -/
inductive Decoded where
  | instr (i : Instr)
  | reject (r : Reject)
deriving DecidableEq, Repr

/-- The legality of a command word, from that word alone (R59, R65, R66). -/
def wordLegality (w : Word) : Option Reject :=
  match opMask (fieldOp w).toNat with
  | none => some .reservedOpcode
  | some m => if w &&& m = (fieldOp w).setWidth 32 then none else some .reservedField

/-- The command that a legal command word and its operand words stand for (R58, R62, R63). -/
def instrOf (w : Word) (opnd : List Word) : Decoded :=
  match (fieldOp w).toNat with
  | 0x1 => .instr (.init (fieldAddr w))
  | 0x2 => .instr (.showString (fieldA w) (fieldB w) (textOf (fieldL w).toNat opnd))
  | 0x3 => .instr (.showNumber (fieldA w) (fieldB w) (opnd.headD 0))
  | 0x4 => .instr .displayOn
  | 0x5 => .instr .displayOff
  | 0x6 => .instr .clear
  | 0x7 => .instr .backlightOn
  | 0x8 => .instr .backlightOff
  | 0x9 => .instr .scrollLeft
  | 0xA => .instr .scrollRight
  | 0xB => .instr (.sendCommand (fieldA w))
  | 0xC => .instr (.sendData (fieldA w))
  | 0xD => .instr (.sendNibble (fieldA w))
  | 0xE => .instr .resolve
  | _ => .reject .reservedOpcode

/-- Decoding of a latched command: the command word and its operand words (R66). -/
def decodeCommand (w : Word) (opnd : List Word) : Decoded :=
  match wordLegality w with
  | some r => .reject r
  | none => if opnd.length < operandWords w then .reject .missingOperands else instrOf w opnd

/-- Decoding of a stream of words: what its first command is, and the words after that command.
An illegal command takes its operand words too (R64). -/
def decode : List Word → Decoded × List Word
  | [] => (.reject .noWord, [])
  | w :: ws => (decodeCommand w (ws.take (operandWords w)), ws.drop (operandWords w))

/-! ## The encoder -/

/-- A command word from its four fields (R57). -/
def mkWord (op : BitVec 4) (a b : Byte) (l : BitVec 12) : Word := l ++ b ++ a ++ op

/-- An operand word from its four bytes, the first the least significant (R62). -/
def packWord (b0 b1 b2 b3 : Byte) : Word := b3 ++ b2 ++ b1 ++ b0

/-- The operand words of a text; the last word is filled up with zero bytes (R62). -/
def packText : List Byte → List Word
  | [] => []
  | [a] => [packWord a 0 0 0]
  | [a, b] => [packWord a b 0 0]
  | [a, b, c] => [packWord a b c 0]
  | a :: b :: c :: d :: rest => packWord a b c d :: packText rest

/-- The words of a command (R57, R58, R62, R63). -/
def encode : Instr → List Word
  | .init a => [mkWord 0x1 (a.setWidth 8) 0 0]
  | .showString col row text => mkWord 0x2 col row (BitVec.ofNat 12 text.length) :: packText text
  | .showNumber col row n => [mkWord 0x3 col row 0, n]
  | .displayOn => [mkWord 0x4 0 0 0]
  | .displayOff => [mkWord 0x5 0 0 0]
  | .clear => [mkWord 0x6 0 0 0]
  | .backlightOn => [mkWord 0x7 0 0 0]
  | .backlightOff => [mkWord 0x8 0 0 0]
  | .scrollLeft => [mkWord 0x9 0 0 0]
  | .scrollRight => [mkWord 0xA 0 0 0]
  | .sendCommand b => [mkWord 0xB b 0 0]
  | .sendData b => [mkWord 0xC b 0 0]
  | .sendNibble p => [mkWord 0xD p 0 0]
  | .resolve => [mkWord 0xE 0 0 0]

/-! ## The table's numbering of an instruction's bits -/

/-- The words of an instruction whose bits are `w` (bit 0 the least significant of the first word), every bit
from `nbits` on being 0, as many words as R64 gives the command. -/
def tableWords (nbits w : Nat) : List Word :=
  let v := w % 2 ^ nbits
  let cmd : Word := BitVec.ofNat 32 v
  cmd :: (List.range (operandWords cmd)).map (fun k => BitVec.ofNat 32 (v >>> (32 * (k + 1))))

/-- The instruction the decoder reads from those words. -/
def decodeTableWord (nbits w : Nat) : Option Instr :=
  match (decode (tableWords nbits w)).1 with
  | .instr i => some i
  | .reject _ => none

end Sys2Proof
end

