-- ==== Sys2Proof/Machine/Port.lean ====
section
/-! DEFINITION. The command port's handshake (30_encoding.md R64, R75) and illegal commands (60 R118). -/

namespace Sys2Proof.Machine

/-- The next command word is accepted and latched; its operand words are awaited (R75). -/
def latchCommand (w : Word) (rest : List Word) (s : State) : State :=
  { s with cmd := w, opnd := [], accepting := true, hostWords := rest }

/-- How many operand words of the latched command are still to come (R64). -/
def operandsMissing (s : State) : Nat := operandWords s.cmd - s.opnd.length

/-- Operand words the host offers are accepted, as many as the latched command still needs (R64, R75). -/
def latchOperands (s : State) : State :=
  { s with
    opnd := s.opnd ++ s.hostWords.take (operandsMissing s)
    hostWords := s.hostWords.drop (operandsMissing s) }

/-- The last word of the command is accepted: SEQ <- BUSY, SEQ_POS <- 0 (R75). -/
def beginCommand (s : State) : State :=
  { s with accepting := false, seq := .busy, seqPos := 0 }

/-- What the command port does while SEQ = IDLE. -/
inductive Fetched where
  /-- The words offered do not make up a whole command. -/
  | notYet (s : State)
  /-- A whole command is latched in CMD and OPND. -/
  | command (s : State)

/-- Accepting operand words for the command in CMD (R75). -/
def fetchOperands (s : State) : Fetched :=
  if operandsMissing (latchOperands s) = 0 then .command (beginCommand (latchOperands s))
  else .notYet (latchOperands s)

/-- Accepting the words the host offers (R75). -/
def fetch (s : State) : Fetched :=
  if s.accepting then fetchOperands s
  else
    match s.hostWords with
    | [] => .notYet s
    | w :: rest => fetchOperands (latchCommand w rest s)

/-- An illegal command completes with ILLEGAL_COMMAND, its operand words taken (60 R118). -/
def illegalCommand (s : State) : State := finish .illegalCommand s

/-- The BUSY bridge goes on with its command (10 R25). -/
def resume (s : State) : State := runProg s.prog s

end Sys2Proof.Machine
end

