-- ==== Sys2Proof/Machine/Step.lean ====
section
/-! DEFINITION. One step of the bridge: a reset, the command in execution going on, or the next command. -/

namespace Sys2Proof.Machine

/-- A whole command is latched: a legal one is executed, an illegal one completes (30 R75, 60 R118, R120). -/
def execLatched (s : State) : Host.Outcome State Fault Refusal :=
  match decodeCommand s.cmd s.opnd with
  | .instr i => exec i s
  | .reject _ => .next (illegalCommand s)

/-- One step. Reset comes first (70 R133); a BUSY bridge goes on with its command and accepts nothing (30 R75); an
IDLE one accepts what the host offers and executes the command once it is whole (30 R75), or does nothing (70 R148). -/
def step (s : State) : Host.Outcome State Fault Refusal :=
  if s.resetPin then .next (takeReset s)
  else
    match s.seq with
    | .busy => .next (resume s)
    | .idle =>
      match fetch s with
      | .notYet s1 => .next s1
      | .command s1 => execLatched s1

/-- The state in which the next step accepts and runs exactly the instruction whose bits are `w`: its words first on
the command port of an IDLE bridge that awaits no operand word and no reset (log 8). -/
def State.withFetchWord (s : State) (nbits w : Nat) : State :=
  { s with
    hostWords := tableWords nbits w ++ s.hostWords
    seq := .idle
    prog := Prog.nothing
    accepting := false
    resetPin := false }

end Sys2Proof.Machine
end

