-- ==== Sys2Proof/Machine/Assembler.lean ====
section
/-! DEFINITION. The assembler of 30_encoding.md R72 to R74: source text to command-port words. It is no part of a step. -/

namespace Sys2Proof.Machine

/-- Why a line is refused. -/
inductive AsmError where
  /-- No mnemonic or pseudo-instruction of R72, R74 begins the line. -/
  | unknownMnemonic
  /-- The operands do not have the mnemonic's form (R72). -/
  | badOperands
  /-- A number, escape or character that R73 does not have. -/
  | badToken
  /-- An operand lies outside its field (R73). -/
  | outOfRange
deriving DecidableEq, Repr

/-- One command, pseudo-instruction or directive of a source line, its numbers not yet checked (R72, R74). -/
inductive AsmLine where
  | init (addr : Int)
  | showString (col row : Int) (text : List Byte)
  | showNumber (col row n : Int)
  | displayOn
  | displayOff
  | clear
  | backlightOn
  | backlightOff
  | scrollLeft
  | scrollRight
  | sendCommand (b : Int)
  | sendData (b : Int)
  | sendNibble (b : Int)
  | resolve
  /-- `.word <w32>`: one raw word. -/
  | word (w : Int)
  /-- `init_auto` (R74). -/
  | initAuto
  /-- `set_cursor <col>, <row>` (R74). -/
  | setCursor (col row : Int)
  /-- `put_char <byte>` (R74). -/
  | putChar (b : Int)
deriving DecidableEq, Repr

/-! ## Range checks and words (R73, R74) -/

/-- `<col>`, `<row>` and `<byte>` lie in 0..255 (R73). -/
def isByte (x : Int) : Bool := decide (0 ≤ x) && decide (x ≤ 255)

/-- `<addr>` lies in 0..127 (R73). -/
def isAddr (x : Int) : Bool := decide (0 ≤ x) && decide (x ≤ 127)

/-- `<n>` lies in -2147483648..2147483647 (R73). -/
def isNumber (x : Int) : Bool := decide (-2147483648 ≤ x) && decide (x ≤ 2147483647)

/-- A raw word has 32 bits. -/
def isWord32 (x : Int) : Bool := decide (0 ≤ x) && decide (x ≤ 4294967295)

/-- The command byte of the pseudo-instruction `set_cursor` (R74). -/
def setCursorByte (col row : Int) : Byte := BitVec.ofInt 8 ((if row ≠ 0 then 0xC0 else 0x80) + col)

/-- `ws` where the check holds, else the range error (R73). -/
def checked (ok : Bool) (ws : List Word) : Except AsmError (List Word) :=
  if ok then .ok ws else .error .outOfRange

/-- The words of a line, or the operand that its field cannot hold (R72 to R74). -/
def assembleLine : AsmLine → Except AsmError (List Word)
  | .init a => checked (isAddr a) (encode (.init (BitVec.ofInt 7 a)))
  | .showString c r t =>
    checked (isByte c && isByte r && decide (t.length ≤ maxTextLen))
      (encode (.showString (BitVec.ofInt 8 c) (BitVec.ofInt 8 r) t))
  | .showNumber c r n =>
    checked (isByte c && isByte r && isNumber n)
      (encode (.showNumber (BitVec.ofInt 8 c) (BitVec.ofInt 8 r) (BitVec.ofInt 32 n)))
  | .displayOn => .ok (encode .displayOn)
  | .displayOff => .ok (encode .displayOff)
  | .clear => .ok (encode .clear)
  | .backlightOn => .ok (encode .backlightOn)
  | .backlightOff => .ok (encode .backlightOff)
  | .scrollLeft => .ok (encode .scrollLeft)
  | .scrollRight => .ok (encode .scrollRight)
  | .sendCommand b => checked (isByte b) (encode (.sendCommand (BitVec.ofInt 8 b)))
  | .sendData b => checked (isByte b) (encode (.sendData (BitVec.ofInt 8 b)))
  | .sendNibble b => checked (isByte b) (encode (.sendNibble (BitVec.ofInt 8 b)))
  | .resolve => .ok (encode .resolve)
  | .word w => checked (isWord32 w) [BitVec.ofInt 32 w]
  | .initAuto => .ok (encode (.init 0))
  | .setCursor c r => checked (isByte c && isByte r) (encode (.sendCommand (setCursorByte c r)))
  | .putChar b => checked (isByte b) (encode (.sendData (BitVec.ofInt 8 b)))

/-! ## Tokens (R72, R73) -/

/-- A token of a source line. -/
inductive Token where
  /-- A mnemonic or a number, as written. -/
  | atom (cs : List Char)
  | comma
  | text (bs : List Byte)
deriving DecidableEq, Repr

/-- Where the lexer is inside a line. -/
inductive LexState where
  | start
  | inAtom (rev : List Char)
  | inText (rev : List Byte)
  /-- After a backslash. -/
  | inEscape (rev : List Byte)
  /-- After `\x`. -/
  | inHex (rev : List Byte)
  /-- After `\x` and one digit. -/
  | inHexTwo (rev : List Byte) (hi : Nat)
deriving DecidableEq, Repr

/-- The value of a hexadecimal digit. -/
def hexDigit (c : Char) : Option Nat :=
  if '0'.toNat ≤ c.toNat ∧ c.toNat ≤ '9'.toNat then some (c.toNat - '0'.toNat)
  else if 'a'.toNat ≤ c.toNat ∧ c.toNat ≤ 'f'.toNat then some (c.toNat - 'a'.toNat + 10)
  else if 'A'.toNat ≤ c.toNat ∧ c.toNat ≤ 'F'.toNat then some (c.toNat - 'A'.toNat + 10)
  else none

/-- Blanks that separate tokens. -/
def isBlank (c : Char) : Bool := c == ' ' || c == '\t' || c == '\r'

/-- Printable ASCII, 0x20..0x7E (R73). -/
def isPrintable (c : Char) : Bool := decide (0x20 ≤ c.toNat) && decide (c.toNat ≤ 0x7E)

/-- The atom that ends here, in front of later tokens. -/
def endAtom (rev : List Char) : List Token := [.atom rev.reverse]

/-- The tokens of one line; `;` outside a text starts a comment (R72). -/
def lexLine : LexState → List Char → Except AsmError (List Token)
  | .start, [] => .ok []
  | .inAtom rev, [] => .ok (endAtom rev)
  | .inText _, [] => .error .badToken
  | .inEscape _, [] => .error .badToken
  | .inHex _, [] => .error .badToken
  | .inHexTwo _ _, [] => .error .badToken
  | .start, c :: cs =>
    if c == ';' then .ok []
    else if isBlank c then lexLine .start cs
    else if c == ',' then (lexLine .start cs).map (fun ts => .comma :: ts)
    else if c == '"' then lexLine (.inText []) cs
    else lexLine (.inAtom [c]) cs
  | .inAtom rev, c :: cs =>
    if c == ';' then .ok (endAtom rev)
    else if isBlank c then (lexLine .start cs).map (fun ts => endAtom rev ++ ts)
    else if c == ',' then (lexLine .start cs).map (fun ts => endAtom rev ++ .comma :: ts)
    else if c == '"' then .error .badToken
    else lexLine (.inAtom (c :: rev)) cs
  | .inText rev, c :: cs =>
    if c == '"' then (lexLine .start cs).map (fun ts => .text rev.reverse :: ts)
    else if c == '\\' then lexLine (.inEscape rev) cs
    else if isPrintable c then lexLine (.inText (BitVec.ofNat 8 c.toNat :: rev)) cs
    else .error .badToken
  | .inEscape rev, c :: cs =>
    if c == '\\' then lexLine (.inText (0x5C#8 :: rev)) cs
    else if c == '"' then lexLine (.inText (0x22#8 :: rev)) cs
    else if c == 'x' then lexLine (.inHex rev) cs
    else .error .badToken
  | .inHex rev, c :: cs =>
    match hexDigit c with
    | some hi => lexLine (.inHexTwo rev hi) cs
    | none => .error .badToken
  | .inHexTwo rev hi, c :: cs =>
    match hexDigit c with
    | some lo => lexLine (.inText (BitVec.ofNat 8 (16 * hi + lo) :: rev)) cs
    | none => .error .badToken

/-! ## Numbers (R73) -/

/-- The value of digits in a base, the most significant first. -/
def digitsValue (base : Nat) : List Char → Nat → Option Nat
  | [], acc => some acc
  | c :: cs, acc =>
    match hexDigit c with
    | some d => if d < base then digitsValue base cs (acc * base + d) else none
    | none => none

/-- A natural number: decimal, or hexadecimal with `0x` (R73). -/
def natOf : List Char → Option Nat
  | '0' :: 'x' :: c :: cs => digitsValue 16 (c :: cs) 0
  | c :: cs => digitsValue 10 (c :: cs) 0
  | [] => none

/-- A number, or a negative decimal (R73). -/
def intOf : List Char → Option Int
  | '-' :: c :: cs => (digitsValue 10 (c :: cs) 0).map (fun n => -(n : Int))
  | cs => (natOf cs).map (fun n => (n : Int))

/-! ## Lines -/

/-- An operand of a line: a number that may be negative only for show_number's `<n>` (R73). -/
def natOperand : Token → Except AsmError Int
  | .atom cs =>
    match natOf cs with
    | some n => .ok (n : Int)
    | none => .error .badToken
  | .comma => .error .badOperands
  | .text _ => .error .badOperands

/-- show_number's `<n>` (R73). -/
def intOperand : Token → Except AsmError Int
  | .atom cs =>
    match intOf cs with
    | some n => .ok n
    | none => .error .badToken
  | .comma => .error .badOperands
  | .text _ => .error .badOperands

/-- The `<text>` operand (R73). -/
def textOperand : Token → Except AsmError (List Byte)
  | .text bs => .ok bs
  | .comma => .error .badOperands
  | .atom _ => .error .badOperands

/-- The operand tokens between the commas; none where the commas do not separate single tokens. -/
def operandTokens : List Token → Option (List Token)
  | [] => some []
  | [.comma] => none
  | [t] => some [t]
  | .comma :: _ => none
  | t :: .comma :: rest =>
    match rest with
    | [] => none
    | _ :: _ => (operandTokens rest).map (fun ts => t :: ts)
  | _ :: _ :: _ => none

/-- A line with no operand. -/
def noOperand (l : AsmLine) : List Token → Except AsmError AsmLine
  | [] => .ok l
  | _ :: _ => .error .badOperands

/-- A line with one number. -/
def oneNumber (f : Int → AsmLine) : List Token → Except AsmError AsmLine
  | [t] => (natOperand t).map f
  | _ => .error .badOperands

/-- A line with two numbers. -/
def twoNumbers (f : Int → Int → AsmLine) : List Token → Except AsmError AsmLine
  | [t, u] => (natOperand t).bind (fun x => (natOperand u).map (f x))
  | _ => .error .badOperands

/-- A line with two numbers and one more operand. -/
def twoNumbersAnd {α : Type} (read : Token → Except AsmError α) (f : Int → Int → α → AsmLine) :
    List Token → Except AsmError AsmLine
  | [t, u, v] => (natOperand t).bind (fun x => (natOperand u).bind (fun y => (read v).map (f x y)))
  | _ => .error .badOperands

/-- The line that a mnemonic and its operand tokens make (R72, R74). -/
def lineOf (mnemonic : List Char) (ops : List Token) : Except AsmError AsmLine :=
  if mnemonic = ['i','n','i','t'] then oneNumber .init ops
  else if mnemonic = ['s','h','o','w','_','s','t','r','i','n','g'] then twoNumbersAnd textOperand .showString ops
  else if mnemonic = ['s','h','o','w','_','n','u','m','b','e','r'] then twoNumbersAnd intOperand .showNumber ops
  else if mnemonic = ['d','i','s','p','l','a','y','_','o','n'] then noOperand .displayOn ops
  else if mnemonic = ['d','i','s','p','l','a','y','_','o','f','f'] then noOperand .displayOff ops
  else if mnemonic = ['c','l','e','a','r'] then noOperand .clear ops
  else if mnemonic = ['b','a','c','k','l','i','g','h','t','_','o','n'] then noOperand .backlightOn ops
  else if mnemonic = ['b','a','c','k','l','i','g','h','t','_','o','f','f'] then noOperand .backlightOff ops
  else if mnemonic = ['s','c','r','o','l','l','_','l','e','f','t'] then noOperand .scrollLeft ops
  else if mnemonic = ['s','c','r','o','l','l','_','r','i','g','h','t'] then noOperand .scrollRight ops
  else if mnemonic = ['s','e','n','d','_','c','o','m','m','a','n','d'] then oneNumber .sendCommand ops
  else if mnemonic = ['s','e','n','d','_','d','a','t','a'] then oneNumber .sendData ops
  else if mnemonic = ['s','e','n','d','_','n','i','b','b','l','e'] then oneNumber .sendNibble ops
  else if mnemonic = ['r','e','s','o','l','v','e'] then noOperand .resolve ops
  else if mnemonic = ['.','w','o','r','d'] then oneNumber .word ops
  else if mnemonic = ['i','n','i','t','_','a','u','t','o'] then noOperand .initAuto ops
  else if mnemonic = ['s','e','t','_','c','u','r','s','o','r'] then twoNumbers .setCursor ops
  else if mnemonic = ['p','u','t','_','c','h','a','r'] then oneNumber .putChar ops
  else .error .unknownMnemonic

/-- One source line; none for an empty line or a comment (R72). -/
def parseLine (cs : List Char) : Except AsmError (Option AsmLine) :=
  (lexLine .start cs).bind fun ts =>
    match ts with
    | [] => .ok none
    | .comma :: _ => .error .unknownMnemonic
    | .text _ :: _ => .error .unknownMnemonic
    | .atom m :: rest =>
      match operandTokens rest with
      | none => .error .badOperands
      | some ops => (lineOf m ops).map some

/-- The words of one source line. -/
def assembleSource (cs : List Char) : Except AsmError (List Word) :=
  (parseLine cs).bind fun l =>
    match l with
    | none => .ok []
    | some l => assembleLine l

/-- The words of a source program, one command per line (R72). -/
def assembleProgram : List (List Char) → Except AsmError (List Word)
  | [] => .ok []
  | l :: ls => (assembleSource l).bind fun ws => (assembleProgram ls).map (fun rest => ws ++ rest)

end Sys2Proof.Machine
end

