-- ==== Sys2Proof/Safety.lean ====
section
/-! DEFINITION. The words claims are made in: traces (00_scope.md R16), conditions on the transport, the invariant. -/

namespace Sys2Proof.Machine

/-! ## Traces (00_scope.md R16) -/

/-- A frame write that the transport answers with ok, and its settle delay (41 R91). -/
def frameTrace (p : Params) (a : Addr) (f : Byte) : List PortEvent :=
  [.write a [f] .ok, .delay p.settleMs]

/-- The trace of a list of frame writes to one address, all answered with ok. -/
def framesTrace (p : Params) (a : Addr) (fs : List Byte) : List PortEvent := fs.flatMap (frameTrace p a)

/-- A trace cut off at its bus write number `k` (from 0), which is answered with error: it is the last event, and no
delay follows it (41 R91, 60 R116). -/
def cutAtWrite : Nat → List PortEvent → List PortEvent
  | _, [] => []
  | 0, .write a bs _ :: _ => [.write a bs .error]
  | k + 1, .write a bs r :: es => .write a bs r :: cutAtWrite k es
  | k, .read a r :: es => .read a r :: cutAtWrite k es
  | k, .delay ms :: es => .delay ms :: cutAtWrite k es
  | k, .response w :: es => .response w :: cutAtWrite k es

/-- The frames of one nibble: frame, frame with EN, frame (41 R92). -/
def strobeFrames (bl rs : Bool) (p : Byte) : List Byte :=
  [frameOf bl rs p, frameOf bl rs p ||| 0x04#8, frameOf bl rs p]

/-- The frames of one byte, the high nibble first (41 R93, R94). -/
def byteFrames (bl rs : Bool) (b : Byte) : List Byte :=
  strobeFrames bl rs (b &&& 0xF0#8) ++ strobeFrames bl rs (b <<< 4)

/-- The frames of SHOW_STRING: the cursor command, then each byte of the text (42 R102). -/
def stringFrames (bl : Bool) (col row : Byte) (text : List Byte) : List Byte :=
  byteFrames bl false (cursor col row) ++ text.flatMap (byteFrames bl true)

/-- The bring-up trace of INIT, written out as in 42 R101. -/
def bringUpTrace (p : Params) (a : Addr) : List PortEvent :=
  framesTrace p a [0x38, 0x3C, 0x38, 0x38, 0x3C, 0x38] ++ [.delay p.initMs] ++
  framesTrace p a [0x38, 0x3C, 0x38] ++ [.delay p.initMs] ++
  framesTrace p a [0x28, 0x2C, 0x28] ++ [.delay p.initMs] ++
  framesTrace p a [0x28, 0x2C, 0x28, 0x88, 0x8C, 0x88] ++
  framesTrace p a [0x08, 0x0C, 0x08, 0xC8, 0xCC, 0xC8] ++
  framesTrace p a [0x08, 0x0C, 0x08, 0x68, 0x6C, 0x68] ++
  framesTrace p a [0x08, 0x0C, 0x08, 0x18, 0x1C, 0x18]

/-- The candidates in the order of the scan (40 R83). -/
def candidates : List Addr :=
  [0x20, 0x21, 0x22, 0x23, 0x24, 0x25, 0x26, 0x27, 0x38, 0x39, 0x3A, 0x3B, 0x3C, 0x3D, 0x3E, 0x3F]

/-- How the transport answers the four transactions of one probe (40 R80, R85). -/
inductive ProbeRun where
  /-- All four answered: the readbacks `r1` and `r2`. -/
  | whole (r1 r2 : Byte)
  /-- The all-ones write errs. -/
  | firstWriteErrs
  /-- The first read errs. -/
  | firstReadErrs
  /-- The zero write errs. -/
  | secondWriteErrs (r1 : Byte)
  /-- The second read errs. -/
  | secondReadErrs (r1 : Byte)
deriving DecidableEq, Repr

/-- Whether the candidate is accepted: no error, `r1 mod 16 == 7` and `r2 == 0` (40 R81, R82, R85). -/
def ProbeRun.accepts : ProbeRun → Bool
  | .whole r1 r2 => decide (r1.toNat % 16 = 7) && decide (r2.toNat = 0)
  | .firstWriteErrs => false
  | .firstReadErrs => false
  | .secondWriteErrs _ => false
  | .secondReadErrs _ => false

/-- Whether a transaction of the probe errs. -/
def ProbeRun.errs : ProbeRun → Bool
  | .whole _ _ => false
  | .firstWriteErrs => true
  | .firstReadErrs => true
  | .secondWriteErrs _ => true
  | .secondReadErrs _ => true

/-- The answers to the probe's writes. -/
def ProbeRun.writes : ProbeRun → List WriteAnswer
  | .whole _ _ => [.ok, .ok]
  | .firstWriteErrs => [.error]
  | .firstReadErrs => [.ok]
  | .secondWriteErrs _ => [.ok, .error]
  | .secondReadErrs _ => [.ok, .ok]

/-- The answers to the probe's reads. -/
def ProbeRun.reads : ProbeRun → List ReadAnswer
  | .whole r1 r2 => [.ok r1, .ok r2]
  | .firstWriteErrs => []
  | .firstReadErrs => [.error]
  | .secondWriteErrs r1 => [.ok r1]
  | .secondReadErrs r1 => [.ok r1, .error]

/-- The trace of the probe of `a`; an error is its last event (40 R85, R88). -/
def ProbeRun.trace (p : Params) (a : Addr) : ProbeRun → List PortEvent
  | .whole r1 r2 =>
    [.write a (List.replicate p.probeWidths.first 0xFF#8) .ok, .read a (.ok r1),
     .write a (List.replicate p.probeWidths.second 0x00#8) .ok, .read a (.ok r2)]
  | .firstWriteErrs => [.write a (List.replicate p.probeWidths.first 0xFF#8) .error]
  | .firstReadErrs => [.write a (List.replicate p.probeWidths.first 0xFF#8) .ok, .read a .error]
  | .secondWriteErrs r1 =>
    [.write a (List.replicate p.probeWidths.first 0xFF#8) .ok, .read a (.ok r1),
     .write a (List.replicate p.probeWidths.second 0x00#8) .error]
  | .secondReadErrs r1 =>
    [.write a (List.replicate p.probeWidths.first 0xFF#8) .ok, .read a (.ok r1),
     .write a (List.replicate p.probeWidths.second 0x00#8) .ok, .read a .error]

/-- The trace of probes of candidates in order, one per probe run (40 R83, R88). -/
def scanTrace (p : Params) : List Addr → List ProbeRun → List PortEvent
  | a :: as, q :: qs => q.trace p a ++ scanTrace p as qs
  | [], _ => []
  | _ :: _, [] => []

/-- The probes of a scan that goes on: none accepts, and none errs unless an error rejects its candidate (40 R85). -/
abbrev scansOn (p : Params) (qs : List ProbeRun) : Prop :=
  ∀ q ∈ qs, q.accepts = false ∧ (p.resolverErr = .propagate → q.errs = false)

/-- The candidate number `k` of the scan, from 0 (40 R83). -/
def candidateAt (k : Nat) : Addr := candidates.getD k 0

/-- Targets of bus transactions as a scan makes them: the candidates from the first one on, none left out, each with one
to four transactions in a row (20 R39, 40 R83, R85). -/
def InScanOrder (targets : List Addr) : Prop :=
  ∃ counts : List Nat, counts.length ≤ 16 ∧ (∀ n ∈ counts, 1 ≤ n ∧ n ≤ 4) ∧
    targets = (candidates.zip counts).flatMap fun c => List.replicate c.2 c.1

/-- The events of a trace that are bus transactions or delays, which SEQ_POS counts (10 R26). -/
def PortEvent.counted : PortEvent → Bool
  | .write _ _ _ => true
  | .read _ _ => true
  | .delay _ => true
  | .response _ => false

/-- The answer that a write of the record took. -/
def PortEvent.writeAnswer? : PortEvent → Option WriteAnswer
  | .write _ _ r => some r
  | .read _ _ => none
  | .delay _ => none
  | .response _ => none

/-- The answer that a read of the record took. -/
def PortEvent.readAnswer? : PortEvent → Option ReadAnswer
  | .write _ _ _ => none
  | .read _ r => some r
  | .delay _ => none
  | .response _ => none

/-- The address a bus transaction goes to. -/
def PortEvent.target? : PortEvent → Option Addr
  | .write a _ _ => some a
  | .read a _ => some a
  | .delay _ => none
  | .response _ => none

/-- The milliseconds that a delay asks for. -/
def PortEvent.delay? : PortEvent → Option Nat
  | .write _ _ _ => none
  | .read _ _ => none
  | .delay ms => some ms
  | .response _ => none

/-- The byte of a one-byte write. -/
def PortEvent.frame? : PortEvent → Option Byte
  | .write _ [b] _ => some b
  | .write _ [] _ => none
  | .write _ (_ :: _ :: _) _ => none
  | .read _ _ => none
  | .delay _ => none
  | .response _ => none

/-! ## Conditions and comparisons -/

/-- The transport answers the next `n` writes with ok, then as `rest` says, and no delay is held up. -/
abbrev Answered (s : State) (n : Nat) (rest : List WriteAnswer) : Prop :=
  s.writeAnswers = List.replicate n .ok ++ rest ∧ s.delayHold = none

/-- The transport answers `k` writes with ok and the next with error, and no delay is held up. -/
abbrev FailsAt (s : State) (k : Nat) (rest : List WriteAnswer) : Prop :=
  s.writeAnswers = List.replicate k .ok ++ .error :: rest ∧ s.delayHold = none

/-- More answers of the transport arrive. -/
def give (s : State) (ws : List WriteAnswer) (rs : List ReadAnswer) : State :=
  { s with writeAnswers := s.writeAnswers ++ ws, readAnswers := s.readAnswers ++ rs }

/-- The state with the registers put aside that have no meaning between commands: SEQ_POS, FRAME, CAND, WIN, D1, D2
(10 R26, R28, R29, R32). -/
def settled (s : State) : State :=
  { s with seqPos := 0, frame := 0, cand := 0, win := .a, d1 := 0, d2 := 0 }

/-- The bridge has ended its command with status `st`: STATUS and the response report it, and SEQ is IDLE
(60 R119), from the state `s` in which the command stood. -/
def ended (st : Status) (s : State) : State :=
  { s with
    status := st.code
    log := s.log ++ [.response (responseWord { s with status := st.code })]
    seq := .idle
    prog := Prog.nothing }

/-- Executing commands one after another (20 R52), each from the state the one before it left. -/
def execAll : List Instr → State → Host.Outcome State Fault Refusal
  | [], s => .next s
  | i :: is, s =>
    match exec i s with
    | .next t => execAll is t
    | .fault f => .fault f
    | .refused r => .refused r

/-- The rows of R59: match and mask, in the order of the opcodes. -/
def tableRows : List (Word × Word) :=
  [(0x00000001, 0xFFFFF80F), (0x00000002, 0x0000000F), (0x00000003, 0xFFF0000F), (0x00000004, 0xFFFFFFFF),
   (0x00000005, 0xFFFFFFFF), (0x00000006, 0xFFFFFFFF), (0x00000007, 0xFFFFFFFF), (0x00000008, 0xFFFFFFFF),
   (0x00000009, 0xFFFFFFFF), (0x0000000A, 0xFFFFFFFF), (0x0000000B, 0xFFFFF00F), (0x0000000C, 0xFFFFF00F),
   (0x0000000D, 0xFFFFF00F), (0x0000000E, 0xFFFFFFFF)]

/-- An illegal command word, by its fields: OP = 0x0, OP = 0xF, or a field that must be zero is not (30 R59, R65). -/
def illegalByFields (w : Word) : Bool :=
  match (fieldOp w).toNat with
  | 0x1 => decide (128 ≤ (fieldA w).toNat) || decide (fieldB w ≠ 0) || decide (fieldL w ≠ 0)
  | 0x2 => false
  | 0x3 => decide (fieldL w ≠ 0)
  | 0xB => decide (fieldB w ≠ 0) || decide (fieldL w ≠ 0)
  | 0xC => decide (fieldB w ≠ 0) || decide (fieldL w ≠ 0)
  | 0xD => decide (fieldB w ≠ 0) || decide (fieldL w ≠ 0)
  | 0x0 => true
  | 0xF => true
  | _ => decide (fieldA w ≠ 0) || decide (fieldB w ≠ 0) || decide (fieldL w ≠ 0)

/-- An IDLE bridge with no reset requested that awaits no operand word. -/
abbrev AwaitsCommand (s : State) : Prop := s.resetPin = false ∧ s.seq = .idle ∧ s.accepting = false

/-- The state in which a whole command stands latched (30 R75). -/
def latched (w : Word) (ops rest : List Word) (s : State) : State :=
  { s with cmd := w, opnd := ops, hostWords := rest, accepting := false, seq := .busy, seqPos := 0 }

/-- INIT after its address step (42 R100). -/
def initReady (a : Addr) (s : State) : State :=
  { s with addr := a, addrValid := true, resultAddr := a, bl := true, rs := false }

/-- As many answered writes as a command can need (10 R26, 70 R146). -/
def writeBound : Instr → Nat
  | .init _ => 68
  | .showString _ _ text => 6 * (1 + text.length)
  | .showNumber _ _ _ => 72
  | .displayOn => 6
  | .displayOff => 6
  | .clear => 6
  | .backlightOn => 6
  | .backlightOff => 6
  | .scrollLeft => 6
  | .scrollRight => 6
  | .sendCommand _ => 6
  | .sendData _ => 6
  | .sendNibble _ => 3
  | .resolve => 32

/-- As many answered reads as a command can need. -/
def readBound : Instr → Nat
  | .init _ => 32
  | .resolve => 32
  | .showString _ _ _ => 0
  | .showNumber _ _ _ => 0
  | .displayOn => 0
  | .displayOff => 0
  | .clear => 0
  | .backlightOn => 0
  | .backlightOff => 0
  | .scrollLeft => 0
  | .scrollRight => 0
  | .sendCommand _ => 0
  | .sendData _ => 0
  | .sendNibble _ => 0

/-- Commands that need ADDR (60 R115, R118). -/
def needsAddr : Instr → Bool
  | .init _ => false
  | .resolve => false
  | .showString _ _ _ => true
  | .showNumber _ _ _ => true
  | .displayOn => true
  | .displayOff => true
  | .clear => true
  | .backlightOn => true
  | .backlightOff => true
  | .scrollLeft => true
  | .scrollRight => true
  | .sendCommand _ => true
  | .sendData _ => true
  | .sendNibble _ => true

/-! ## The invariant -/

/-- What a micro-program may rely on at a point of it: ADDR_VALID = 1, ADDR ≠ 0, CAND is a candidate. -/
structure Known where
  valid : Bool
  nonzero : Bool
  candidate : Bool
deriving DecidableEq, Repr

/-- A micro-program keeps the rules of the bridge: it sets ADDR_VALID only when ADDR is nonzero (10 R34), writes frames
only while ADDR_VALID = 1 (10 R33), and probes candidates only (20 R39). -/
def Prog.guarded : Known → Prog → Bool
  | _, .complete _ => true
  | g, .set (.addr a) k => decide (a ≠ 0) && Prog.guarded { g with nonzero := true } k
  | g, .set (.addrValid v) k => (!v || g.nonzero) && Prog.guarded { g with valid := v } k
  | g, .set (.cand a) k => candidates.contains a && Prog.guarded { g with candidate := true } k
  | g, .set (.bl _) k => Prog.guarded g k
  | g, .set (.rs _) k => Prog.guarded g k
  | g, .set (.resultAddr _) k => Prog.guarded g k
  | g, .set (.win _) k => Prog.guarded g k
  | g, .compose _ k => Prog.guarded g k
  | g, .frameWrite _ k => g.valid && Prog.guarded g k
  | g, .sleep _ k => Prog.guarded g k
  | g, .probe _ a r => g.candidate && (Prog.guarded g a && Prog.guarded g r)

/-- What is known of a state. -/
def known (s : State) : Known :=
  { valid := s.addrValid, nonzero := decide (s.addr ≠ 0), candidate := candidates.contains s.cand }

/-- What every event of the record looks like: a write of one byte has bit 1 clear (20 R41, 30 R68) and may go
anywhere, a longer one and a read go to a candidate (20 R39); a delay is one of the two parameters (60 R126); a
response has bits 31:14 zero and no reserved status code (30 R60, R61). -/
def eventOk (p : Params) : PortEvent → Bool
  | .write _ [b] _ => !b.getLsbD 1
  | .write a _ _ => candidates.contains a
  | .read a _ => candidates.contains a
  | .delay ms => decide (ms = p.settleMs) || decide (ms = p.initMs)
  | .response w => decide (w.toNat < 2 ^ 14) && decide (w.toNat % 16 ≤ 4)

/-- The invariant of the bridge. -/
structure Inv (s : State) : Prop where
  /-- The parameters keep their bounds (00_scope.md R7). -/
  params : s.params.wf = true
  /-- Values 5..15 are never written to STATUS (10 R23). -/
  status : s.status.toNat ≤ 4
  /-- Whenever ADDR_VALID = 1, ADDR is in 0x01..0x7F (10 R34). -/
  address : s.addrValid = true → s.addr ≠ 0
  /-- FRAME has bits 2 and 1 clear: R68 for a composed frame, logs 4 and 5 at reset and between nibbles (10 R28, R32). -/
  frame : s.frame &&& 0x06#8 = 0
  /-- While BUSY the bridge is at a port event of a micro-program that keeps the rules (10 R25). -/
  busy : s.seq = .busy → (pendingRequest s).isSome = true ∧ s.prog.guarded (known s) = true
  /-- Operand words are awaited only while IDLE (30 R75). -/
  accepting : s.accepting = true → s.seq = .idle ∧ s.opnd.length ≤ operandWords s.cmd
  /-- Every event of the record is one the bridge may issue. -/
  log : ∀ e ∈ s.log, eventOk s.params e = true

end Sys2Proof.Machine
end

