-- ==== Sys2Proof/Certificates/Slice0/Obligations.lean ====
section
/-! DEFINITION. The statements for the provers, each from the numbered rules its docstring names. -/

namespace Sys2Proof.Machine

/-! ## Forms that several statements share -/

/-- What a command that drives the display with a fixed list of `n` frames does from a state `s`: `upd` is its
state writes, `frames s` the bytes it sends to ADDR. With every write answered it ends with OK after them all; with
write number `k` answered by an error it ends with TRANSPORT_ERROR there, the state writes kept; while ADDR_VALID = 0 it
ends with NOT_INITIALIZED and does nothing else. -/
def SendsFrames (i : Instr) (n : Nat) (upd : State → State) (frames : State → List Byte) : Prop :=
  ∀ (s : State) (rest : List WriteAnswer),
    (frames s).length = n ∧
    (s.addrValid = true → Answered s n rest →
      ∃ t, exec i s = .next t ∧
        settled t = settled (ended .ok
          { upd s with writeAnswers := rest, log := s.log ++ framesTrace s.params s.addr (frames s) })) ∧
    (∀ k, k < n → s.addrValid = true → FailsAt s k rest →
      ∃ t, exec i s = .next t ∧
        settled t = settled (ended .transportError
          { upd s with
            writeAnswers := rest
            log := s.log ++ cutAtWrite k (framesTrace s.params s.addr (frames s)) })) ∧
    (s.addrValid = false → exec i s = .next (ended .notInitialized s))

/-- What a command that shows a text does: the cursor command, then the bytes of the text. RS is 1 afterwards
exactly when a data byte was reached. -/
def ShowsText (i : Instr) (col row : Byte) (text : List Byte) : Prop :=
  ∀ (s : State) (rest : List WriteAnswer),
    (s.addrValid = true → Answered s (6 * (1 + text.length)) rest →
      ∃ t, exec i s = .next t ∧
        settled t = settled (ended .ok
          { s with
            rs := decide (1 ≤ text.length)
            writeAnswers := rest
            log := s.log ++ framesTrace s.params s.addr (stringFrames s.bl col row text) })) ∧
    (∀ k, k < 6 * (1 + text.length) → s.addrValid = true → FailsAt s k rest →
      ∃ t, exec i s = .next t ∧
        settled t = settled (ended .transportError
          { s with
            rs := decide (6 ≤ k)
            writeAnswers := rest
            log := s.log ++ cutAtWrite k (framesTrace s.params s.addr (stringFrames s.bl col row text)) })) ∧
    (s.addrValid = false → exec i s = .next (ended .notInitialized s))

/-- INIT with an explicit address (42 R100): the bring-up sequence, whole or cut off at a failing write. -/
def InitExplicit (a : Addr) : Prop :=
  ∀ (s : State) (rest : List WriteAnswer), a ≠ 0 →
    (Answered s 36 rest →
      ∃ t, exec (.init a) s = .next t ∧
        settled t = settled (ended .ok
          { initReady a s with writeAnswers := rest, log := s.log ++ bringUpTrace s.params a })) ∧
    (∀ k, k < 36 → FailsAt s k rest →
      ∃ t, exec (.init a) s = .next t ∧
        settled t = settled (ended .transportError
          { initReady a s with
            writeAnswers := rest
            log := s.log ++ cutAtWrite k (bringUpTrace s.params a) }))

/-- INIT with the operand 0 (42 R100) on a transport that answers the probes as `qs`, none of which accepts. -/
def InitAutodetect : Prop :=
  ∀ (s : State) (qs : List ProbeRun) (q : ProbeRun) (wrest : List WriteAnswer) (rrest : List ReadAnswer),
    scansOn s.params qs →
    (qs.length < 16 → q.accepts = true → s.delayHold = none →
      s.readAnswers = (qs ++ [q]).flatMap ProbeRun.reads ++ rrest →
      (s.writeAnswers = (qs ++ [q]).flatMap ProbeRun.writes ++ (List.replicate 36 .ok ++ wrest) →
        ∃ t, exec (.init 0) s = .next t ∧
          settled t = settled (ended .ok
            { initReady (candidateAt qs.length) s with
              writeAnswers := wrest
              readAnswers := rrest
              log := s.log ++ scanTrace s.params candidates (qs ++ [q]) ++
                bringUpTrace s.params (candidateAt qs.length) })) ∧
      (∀ k, k < 36 →
        s.writeAnswers = (qs ++ [q]).flatMap ProbeRun.writes ++ (List.replicate k .ok ++ .error :: wrest) →
        ∃ t, exec (.init 0) s = .next t ∧
          settled t = settled (ended .transportError
            { initReady (candidateAt qs.length) s with
              writeAnswers := wrest
              readAnswers := rrest
              log := s.log ++ scanTrace s.params candidates (qs ++ [q]) ++
                cutAtWrite k (bringUpTrace s.params (candidateAt qs.length)) }))) ∧
    (qs.length = 16 → s.writeAnswers = qs.flatMap ProbeRun.writes ++ wrest →
      s.readAnswers = qs.flatMap ProbeRun.reads ++ rrest →
      ∃ t, exec (.init 0) s = .next t ∧
        settled t = settled (ended .addressNotFound
          { s with
            addrValid := false
            resultAddr := 0
            writeAnswers := wrest
            readAnswers := rrest
            log := s.log ++ scanTrace s.params candidates qs })) ∧
    (qs.length < 16 → s.params.resolverErr = .propagate → q.errs = true →
      s.writeAnswers = (qs ++ [q]).flatMap ProbeRun.writes ++ wrest →
      s.readAnswers = (qs ++ [q]).flatMap ProbeRun.reads ++ rrest →
      ∃ t, exec (.init 0) s = .next t ∧
        settled t = settled (ended .transportError
          { s with
            addrValid := false
            writeAnswers := wrest
            readAnswers := rrest
            log := s.log ++ scanTrace s.params candidates (qs ++ [q]) }))

/-- The six frames of one byte, bit by bit (41 R98). -/
def SixFrames (fs : List Byte) (bl rs : Bool) (c : Byte) : Prop :=
  fs.length = 6 ∧
  ∀ j f, fs[j]? = some f →
    f.extractLsb' 4 4 = (if j < 3 then c.extractLsb' 4 4 else c.extractLsb' 0 4) ∧
    f.getLsbD 3 = bl ∧ f.getLsbD 2 = (decide (j = 1) || decide (j = 4)) ∧ f.getLsbD 1 = false ∧ f.getLsbD 0 = rs

/-- What a command adds to the record: the probes of a scan (RESOLVE and INIT 0 only), then `es`, in which nothing is
read. Where INIT 0 writes anything in `es`, the probes end with the readback of the address it found, so the two parts
are told apart in one way only. -/
def ScanThenFrames (i : Instr) (s t : State) (probes es : List PortEvent) : Prop :=
  exec i s = .next t ∧ t.log = s.log ++ probes ++ es ∧
  (i ≠ .resolve → i ≠ .init 0 → probes = []) ∧
  (∀ e ∈ probes, ∃ a ∈ candidates,
    (∃ r, e = .write a (onesProbe s.params) r) ∨ (∃ r, e = .write a (zeroProbe s.params) r) ∨ ∃ r, e = .read a r) ∧
  (∀ a r, PortEvent.read a r ∉ es) ∧
  (i = .resolve → ∀ a bs r, PortEvent.write a bs r ∉ es) ∧
  (i = .init 0 → ∀ a bs r, PortEvent.write a bs r ∈ es → ∃ b, probes.getLast? = some (.read t.addr (.ok b)))

/-- The bring-up's cost in the events `es` (42 R101, 70 R146), beside `k` probes of four transactions each. -/
def BringUpCosts (k : Nat) (es : List PortEvent) : Prop :=
  (es.filterMap PortEvent.frame?).length = 36 ∧ (es.filterMap PortEvent.target?).length = 36 + 4 * k ∧
  (es.filterMap PortEvent.delay?).length = 39 ∧ (es.filterMap PortEvent.delay?).sum = 51

/-- The assembler gives words for the line (30 R73). -/
def Assembles (l : AsmLine) : Prop := ∃ ws, assembleLine l = .ok ws

/-- The line gives words, and they decode to `i`, whatever words follow (30 R72). -/
def AssemblesTo (l : AsmLine) (i : Instr) : Prop :=
  ∃ ws, assembleLine l = .ok ws ∧ ∀ rest, decode (ws ++ rest) = (.instr i, rest)

/-- `<col>`, `<row>` and `<byte>` (30 R73). -/
def InByte (x : Int) : Prop := 0 ≤ x ∧ x ≤ 255

end Sys2Proof.Machine

open Sys2Proof Sys2Proof.Machine

/-! ## Reset (70 R132 to R134) -/

/-- R132, R134: reset puts the registers to the values of R32, whatever the bridge was doing, and issues no port event and
no response; after it the bridge waits for a command. That the words taken of a command not yet whole are dropped and
that the reset input is spent is the model's choice (log 9). -/
def Obligations.ResetSetsTheRegisters : Prop :=
  (State.reset.addr = 0 ∧ State.reset.addrValid = false ∧ State.reset.bl = false ∧ State.reset.rs = false ∧
    State.reset.status = 0 ∧ State.reset.resultAddr = 0 ∧ AwaitsCommand State.reset ∧
    step State.reset = .next State.reset) ∧
  ∀ s : State, s.resetPin = true →
    ∃ t, step s = .next t ∧
      t.addr = 0 ∧ t.addrValid = false ∧ t.bl = false ∧ t.rs = false ∧ t.status = 0 ∧ t.resultAddr = 0 ∧
      AwaitsCommand t ∧ t.log = s.log ∧ t.params = s.params ∧ t.hostWords = s.hostWords

/-- The reset state meets the invariant. That FRAME has bits 2 and 1 clear here is the model's choice of its reset value
(log 4), which R32 leaves unspecified. -/
def Obligations.ResetMeetsTheInvariant : Prop := Inv State.reset

/-- Every step keeps the invariant, from every state that has it. R68 gives FRAME's bits 2 and 1 clear for a composed
frame; that they are so after a reset step and between commands too rests on the model's choices of what FRAME holds
where the spec gives it no meaning (logs 4 and 5). -/
def Obligations.StepKeepsTheInvariant : Prop :=
  ∀ s t : State, Inv s → step s = .next t → Inv t

/-! ## The command port (30 R64, R75) -/

/-- R75: an IDLE bridge that is offered a legal command with its operand words accepts exactly those and executes the
decoded command with SEQ = BUSY and SEQ_POS = 0; so too when it had accepted the first words before. -/
def Obligations.StepRunsTheDecodedCommand : Prop :=
  (∀ (s : State) (w : Word) (ops rest : List Word) (i : Instr),
    AwaitsCommand s → s.hostWords = w :: (ops ++ rest) → ops.length = operandWords w →
    decodeCommand w ops = .instr i →
    step s = exec i (latched w ops rest s)) ∧
  (∀ (s : State) (ops rest : List Word) (i : Instr),
    s.resetPin = false → s.seq = .idle → s.accepting = true → s.hostWords = ops ++ rest →
    (s.opnd ++ ops).length = operandWords s.cmd → decodeCommand s.cmd (s.opnd ++ ops) = .instr i →
    step s = exec i (latched s.cmd (s.opnd ++ ops) rest s))

/-- The instruction of a 32-bit table word is what the next step runs (the model's own interface, log 8). -/
def Obligations.FetchWordRunsItsInstr : Prop :=
  ∀ (s : State) (w : Nat) (i : Instr), decodeTableWord 32 w = some i →
    ∃ ops, ops.length = operandWords (BitVec.ofNat 32 w) ∧
      step (s.withFetchWord 32 w) =
        exec i (latched (BitVec.ofNat 32 w) ops s.hostWords { s with resetPin := false, prog := Prog.nothing })

/-- R118 (with R65, R120): a command that needs ADDR, accepted while ADDR_VALID = 0, completes with NOT_INITIALIZED; an
illegal command word, its operand words taken, completes with ILLEGAL_COMMAND whatever ADDR_VALID is, also when the
bridge had accepted the first words before. Neither issues a port event or changes a register but STATUS. -/
def Obligations.AddedStatusesDoNothingElse : Prop :=
  (∀ (i : Instr) (s : State), needsAddr i = true → s.addrValid = false →
    exec i s = .next (ended .notInitialized s)) ∧
  (∀ (s : State) (w : Word) (ops rest : List Word),
    AwaitsCommand s → s.hostWords = w :: (ops ++ rest) → ops.length = operandWords w →
    illegalByFields w = true →
    step s = .next (ended .illegalCommand (latched w ops rest s))) ∧
  (∀ (s : State) (ops rest : List Word),
    s.resetPin = false → s.seq = .idle → s.accepting = true → s.hostWords = ops ++ rest →
    (s.opnd ++ ops).length = operandWords s.cmd → illegalByFields s.cmd = true →
    step s = .next (ended .illegalCommand (latched s.cmd (s.opnd ++ ops) rest s)))

/-- R75: the bridge keeps the words it has accepted while operand words are awaited, and issues nothing. -/
def Obligations.OperandWordsAreAwaited : Prop :=
  (∀ (s : State) (w : Word) (ops : List Word),
    AwaitsCommand s → s.hostWords = w :: ops → ops.length < operandWords w →
    step s = .next { s with cmd := w, opnd := ops, accepting := true, hostWords := [] }) ∧
  (∀ s : State, s.resetPin = false → s.seq = .idle → s.accepting = true →
    (s.opnd ++ s.hostWords).length < operandWords s.cmd →
    step s = .next { s with opnd := s.opnd ++ s.hostWords, hostWords := [] })

/-- R148: with no word on the command port an IDLE bridge does nothing. -/
def Obligations.IdleBridgeIssuesNothing : Prop :=
  ∀ s : State, AwaitsCommand s → s.hostWords = [] → step s = .next s

/-- R52, R27: while BUSY a step accepts no word, and CMD and OPND stay. -/
def Obligations.BusyBridgeAcceptsNothing : Prop :=
  ∀ s : State, s.resetPin = false → s.seq = .busy →
    ∃ t, step s = .next t ∧ t.hostWords = s.hostWords ∧ t.cmd = s.cmd ∧ t.opnd = s.opnd ∧
      t.accepting = s.accepting ∧ t.params = s.params

/-- R124: a transport that does not answer leaves the bridge BUSY, in the same state, step after step; reset
ends that. -/
def Obligations.UnansweredTransactionKeepsTheBridgeBusy : Prop :=
  ∀ s : State, s.seq = .busy →
    ((∃ a bs, pendingRequest s = some (.write a bs)) ∧ s.writeAnswers = [] ∨
      (∃ a, pendingRequest s = some (.read a)) ∧ s.readAnswers = []) →
    (s.resetPin = false → step s = .next s) ∧
    (s.resetPin = true → ∃ t, step s = .next t ∧ t.seq = .idle ∧ t.log = s.log)

/-- R25, R40: waiting is transparent. If a command has come to a wait, then giving it the further answers and taking a
step leaves the very state that executing it with all the answers at once leaves; the same where a delay held up is
released, or a later one held up, answers given or not. That the hold on a delay is one input, counted from the delays already done, is the model's
choice of form (log 2). -/
def Obligations.WaitingIsTransparent : Prop :=
  ∀ (i : Instr) (s t : State) (ws : List WriteAnswer) (rs : List ReadAnswer),
    exec i s = .next t → t.seq = .busy → t.resetPin = false →
    exec i (give s ws rs) = step (give t ws rs) ∧
    ∃ es, t.log = s.log ++ es ∧ ∀ h : Option Nat,
      exec i { give s ws rs with delayHold := h.map (· + (es.filterMap PortEvent.delay?).length) } =
        step { give t ws rs with delayHold := h }

/-- R133: a reset while BUSY abandons the command: no further port event, no response. What was in progress, a transaction
or a delay, is kept as abandoned, and nothing is said of its end (log 9). -/
def Obligations.ResetAbandonsWhatIsInProgress : Prop :=
  ∀ (s : State) (r : Request), s.resetPin = true → pendingRequest s = some r →
    ∃ t, step s = .next t ∧ AwaitsCommand t ∧ t.prog = Prog.nothing ∧ t.log = s.log ∧
      t.abandoned = s.abandoned ++ [r]

/-- R14, R133, R147 (log 2): any delay of any command can be the one in progress. If a command makes its delay number `k`
(from 0) when no delay is held up, then with that delay held up it comes to a wait exactly there, and steps leave it
there while the delay runs. -/
def Obligations.EveryDelayCanBeInProgress : Prop :=
  ∀ (i : Instr) (s u : State) (es : List PortEvent) (k ms : Nat),
    exec i { s with delayHold := none } = .next u → u.log = s.log ++ es →
    (es.filterMap PortEvent.delay?)[k]? = some ms →
    ∃ t fs, exec i { s with delayHold := some k } = .next t ∧ t.seq = .busy ∧
      pendingRequest t = some (.delay ms) ∧ (t.resetPin = false → step t = .next t) ∧
      t.log = s.log ++ fs ∧ fs.IsPrefix es ∧
      fs.filterMap PortEvent.delay? = (es.filterMap PortEvent.delay?).take k

/-! ## Decoding and encoding (30 R57 to R66) -/

/-- Every well-formed command is what its encoding decodes to, whatever words follow. -/
def Obligations.DecodeOfEncodeIsTheCommand : Prop :=
  ∀ (i : Instr) (rest : List Word), i.wf = true → decode (encode i ++ rest) = (.instr i, rest)

/-- A decoded command is well formed, and its encoding has the command word it came from, as many operand words, and the
same meaning. -/
def Obligations.EncodeGivesTheCommandWordBack : Prop :=
  ∀ (w : Word) (ops : List Word) (i : Instr), ops.length = operandWords w → decodeCommand w ops = .instr i →
    i.wf = true ∧ ∃ ops', encode i = w :: ops' ∧ ops'.length = operandWords w ∧ decodeCommand w ops' = .instr i

/-- R59, R65: a command word with its operand words is legal exactly when `w & mask == match` for a row of the
table, and exactly when its opcode is not reserved and every field that must be zero is. -/
def Obligations.LegalWordsAreTheRowsOfTheTable : Prop :=
  ∀ (w : Word) (ops : List Word), ops.length = operandWords w →
    ((∃ i, decodeCommand w ops = .instr i) ↔ ∃ r ∈ tableRows, w &&& r.2 = r.1) ∧
    ((∃ i, decodeCommand w ops = .instr i) ↔ illegalByFields w = false)

/-- Words written out in 95_test_vectors.md decode to the commands they stand for. -/
def Obligations.WrittenOutWordsDecode : Prop :=
  decodeTableWord 32 0x00000271 = some (.init 0x27) ∧
  decode [0x00201032, 0x00006948] = (.instr (.showString 3 1 [0x48, 0x69]), []) ∧
  decode [0x00001053, 0xFFFFFFF9] = (.instr (.showNumber 5 1 0xFFFFFFF9), []) ∧
  decodeTableWord 32 0x00000007 = some .backlightOn ∧
  decodeTableWord 32 0x0000028B = some (.sendCommand 0x28) ∧
  decodeTableWord 32 0x0000000E = some .resolve

/-! ## Frames (30 R67, R68, 41 R90 to R99) -/

/-- R90, R68: the frame is the high nibble of the payload, 8 for BL and 1 for RS; bits 2 and 1 are clear; adding EN is
setting bit 2 and never carries; the byte written has bit 1 clear. -/
def Obligations.FrameComposition : Prop :=
  ∀ (bl rs : Bool) (p : Byte),
    (frameOf bl rs p).toNat = p.toNat / 16 * 16 + 8 * bl.toNat + rs.toNat ∧
    (frameOf bl rs p).getLsbD 2 = false ∧ (frameOf bl rs p).getLsbD 1 = false ∧
    frameOf bl rs p + 0x04#8 = frameOf bl rs p ||| 0x04#8 ∧
    (frameOf bl rs p).toNat + 4 < 256 ∧
    ∀ en, (strobeByte en (frameOf bl rs p)).getLsbD 1 = false

/-- R95, R92: SEND_NIBBLE writes frame, frame + EN, frame with the current BL and RS. -/
def Obligations.SendNibbleStrobesOneNibble : Prop :=
  ∀ p : Byte, SendsFrames (.sendNibble p) 3 id (fun s => strobeFrames s.bl s.rs p)

/-- R96, R93: SEND_COMMAND clears RS and sends both nibbles. -/
def Obligations.SendCommandSendsTwoNibbles : Prop :=
  ∀ b : Byte, SendsFrames (.sendCommand b) 6 (fun s => { s with rs := false }) (fun s => byteFrames s.bl false b)

/-- R97, R94: SEND_DATA sets RS and sends both nibbles. -/
def Obligations.SendDataSendsTwoNibbles : Prop :=
  ∀ b : Byte, SendsFrames (.sendData b) 6 (fun s => { s with rs := true }) (fun s => byteFrames s.bl true b)

/-- R98: exactly six one-byte writes to ADDR, their bits as the rule says. -/
def Obligations.ByteIsSentInSixFrames : Prop :=
  ∀ (c : Byte) (s : State) (rest : List WriteAnswer), s.addrValid = true → Answered s 6 rest →
    (∃ t fs, exec (.sendCommand c) s = .next t ∧ SixFrames fs s.bl false c ∧
      t.log = s.log ++ framesTrace s.params s.addr fs ++ [.response (responseWord t)]) ∧
    (∃ t fs, exec (.sendData c) s = .next t ∧ SixFrames fs s.bl true c ∧
      t.log = s.log ++ framesTrace s.params s.addr fs ++ [.response (responseWord t)])

/-- R138: whatever the transport answers, the frame writes of a command are a beginning of strobes frame, frame + EN,
frame, in that order. Before them stand, in an autodetecting INIT and in RESOLVE only, the probes: all-ones writes,
zero writes and reads of candidates. -/
def Obligations.StrobesAreNeverReordered : Prop :=
  ∀ (i : Instr) (s : State), ∃ (t : State) (probes es : List PortEvent) (fs : List Byte),
    ScanThenFrames i s t probes es ∧
    (∀ a bs r, PortEvent.write a bs r ∈ es → ∃ b, bs = [b]) ∧
    (∀ f ∈ fs, f &&& 0x06#8 = 0) ∧
    List.IsPrefix (es.filterMap PortEvent.frame?) (fs.flatMap fun f => [f, f ||| 0x04#8, f])

/-! ## Display operations (42 R100 to R114) -/

/-- R100, R101: INIT, with an explicit address and with autodetection, in every outcome. -/
def Obligations.InitRunsTheBringUp : Prop := (∀ a : Addr, InitExplicit a) ∧ InitAutodetect

/-- R101, R146: with the default parameters and every answer ok, INIT writes 36 frames and requests 39 delays of 51 ms in
all; with the operand 0, found as candidate number `k`, it has 4k probe transactions besides. -/
def Obligations.BringUpCost : Prop :=
  (∀ (a : Addr) (s : State) (rest : List WriteAnswer), a ≠ 0 → s.params = Params.default → Answered s 36 rest →
    ∃ t es, exec (.init a) s = .next t ∧ t.seq = .idle ∧ t.status = Status.ok.code ∧
      t.log = s.log ++ es ∧ BringUpCosts 0 es) ∧
  ∀ (s : State) (qs : List ProbeRun) (q : ProbeRun) (wrest : List WriteAnswer) (rrest : List ReadAnswer),
    s.params = Params.default → s.delayHold = none → qs.length < 16 →
    (∀ p ∈ qs, p.accepts = false ∧ p.errs = false) → q.accepts = true →
    s.writeAnswers = (qs ++ [q]).flatMap ProbeRun.writes ++ (List.replicate 36 .ok ++ wrest) →
    s.readAnswers = (qs ++ [q]).flatMap ProbeRun.reads ++ rrest →
    ∃ t es, exec (.init 0) s = .next t ∧ t.seq = .idle ∧ t.status = Status.ok.code ∧
      t.log = s.log ++ es ∧ BringUpCosts (qs.length + 1) es

/-- R102, R103: SHOW_STRING. -/
def Obligations.ShowStringSendsCursorThenText : Prop :=
  ∀ (col row : Byte) (text : List Byte), ShowsText (.showString col row text) col row text

/-- R104: SHOW_NUMBER is SHOW_STRING of the decimal text of the number, with one completion. -/
def Obligations.ShowNumberShowsItsDecimalText : Prop :=
  ∀ (col row : Byte) (n : Word),
    ShowsText (.showNumber col row n) col row (dec n) ∧
    ∀ s : State, exec (.showNumber col row n) s = exec (.showString col row (dec n)) s

/-- R103: the cursor byte is the sum modulo 256. -/
def Obligations.CursorByte : Prop :=
  ∀ col row : Byte,
    (cursor col row).toNat = ((if row.toNat = 0 then 0x80 else 0xC0) + col.toNat) % 256

/-- R105: a minus sign for a negative number, then its decimal digits from the most significant, with no leading
zero; 0 is the one digit 0; at most eleven bytes. -/
def Obligations.DecimalTextIsShortest : Prop :=
  ∀ n : Word, ∃ ds : List Nat,
    dec n = (if n.toInt < 0 then [0x2D#8] else []) ++ ds.map (fun d => BitVec.ofNat 8 (0x30 + d)) ∧
    (∀ d ∈ ds, d < 10) ∧
    ds.foldl (fun v d => 10 * v + d) 0 = n.toInt.natAbs ∧
    (ds.head? = some 0 → ds = [0]) ∧ ds ≠ [] ∧ (dec n).length ≤ 11

/-- The display-control commands and the byte each sends (R106, R107, R108, R111, R112). -/
def Obligations.DisplayControlSendsItsByte : Prop :=
  ∀ i b, (i, b) ∈ ([(.displayOn, 0x0C), (.displayOff, 0x08), (.clear, 0x01), (.scrollLeft, 0x18),
      (.scrollRight, 0x1C)] : List (Instr × Byte)) →
    SendsFrames i 6 (fun s => { s with rs := false }) (fun s => byteFrames s.bl false b)

/-- R109: BACKLIGHT_ON sets BL, clears RS and pushes the bit with the command 0x00. -/
def Obligations.BacklightOnPushesTheBit : Prop :=
  SendsFrames .backlightOn 6 (fun s => { s with bl := true, rs := false }) (fun _ => byteFrames true false 0x00)

/-- R110: BACKLIGHT_OFF clears BL and RS and pushes the bit with the command 0x00. -/
def Obligations.BacklightOffPushesTheBit : Prop :=
  SendsFrames .backlightOff 6 (fun s => { s with bl := false, rs := false }) (fun _ => byteFrames false false 0x00)

/-- R113: the display-control commands equal SEND_COMMAND of their bytes in every state, and no other command equals a
backlight command. -/
def Obligations.DisplayControlEqualsSendCommand : Prop :=
  (∀ s : State,
    exec .displayOn s = exec (.sendCommand 0x0C) s ∧ exec .displayOff s = exec (.sendCommand 0x08) s ∧
    exec .clear s = exec (.sendCommand 0x01) s ∧ exec .scrollLeft s = exec (.sendCommand 0x18) s ∧
    exec .scrollRight s = exec (.sendCommand 0x1C) s) ∧
  (∀ i : Instr, (i ≠ .backlightOn → ∃ s : State, exec .backlightOn s ≠ exec i s) ∧
    (i ≠ .backlightOff → ∃ s : State, exec .backlightOff s ≠ exec i s))

/-- R74: what the pseudo-instructions expand to, and that the cursor command and one SEND_DATA per byte leave the bus
trace and the registers that SHOW_STRING leaves, with one response per command instead of one. -/
def Obligations.PseudoInstructionsReproduceShowString : Prop :=
  assembleLine .initAuto = assembleLine (.init 0) ∧
  (∀ c r : Int, 0 ≤ c → c ≤ 255 → 0 ≤ r → r ≤ 255 →
    assembleLine (.setCursor c r) = assembleLine (.sendCommand (((if r ≠ 0 then 0xC0 else 0x80) + c) % 256))) ∧
  (∀ b : Int, assembleLine (.putChar b) = assembleLine (.sendData b)) ∧
  (∀ (col row : Byte), assembleLine (.setCursor col.toNat row.toNat) = .ok (encode (.sendCommand (cursor col row)))) ∧
  ∀ (col row : Byte) (text : List Byte) (s : State) (rest : List WriteAnswer),
    s.addrValid = true → Answered s (6 * (1 + text.length)) rest →
    ∃ t u es fs,
      execAll (.sendCommand (cursor col row) :: text.map .sendData) s = .next t ∧
      exec (.showString col row text) s = .next u ∧
      t.log = s.log ++ es ∧ u.log = s.log ++ fs ∧
      es.filter PortEvent.counted = fs.filter PortEvent.counted ∧
      (es.filter fun e => !e.counted).length = 1 + text.length ∧
      (fs.filter fun e => !e.counted).length = 1 ∧
      settled { t with log := [] } = settled { u with log := [] }

/-! ## The resolver (40 R80 to R89) -/

/-- R83, R84, R85, R87: RESOLVE probes the candidates in order, stops at the first accepted one, and reports; with
P_RESOLVER_ERR = `RejectCandidate` an error rejects its candidate, with `Propagate` it ends the command. -/
def Obligations.ResolveScansBothWindows : Prop :=
  ∀ (s : State) (qs : List ProbeRun) (q : ProbeRun) (wrest : List WriteAnswer) (rrest : List ReadAnswer),
    scansOn s.params qs →
    (qs.length < 16 → q.accepts = true →
      s.writeAnswers = (qs ++ [q]).flatMap ProbeRun.writes ++ wrest →
      s.readAnswers = (qs ++ [q]).flatMap ProbeRun.reads ++ rrest →
      ∃ t, exec .resolve s = .next t ∧
        settled t = settled (ended .ok
          { s with
            resultAddr := candidateAt qs.length
            writeAnswers := wrest
            readAnswers := rrest
            log := s.log ++ scanTrace s.params candidates (qs ++ [q]) })) ∧
    (qs.length = 16 → s.writeAnswers = qs.flatMap ProbeRun.writes ++ wrest →
      s.readAnswers = qs.flatMap ProbeRun.reads ++ rrest →
      ∃ t, exec .resolve s = .next t ∧
        settled t = settled (ended .addressNotFound
          { s with
            resultAddr := 0
            writeAnswers := wrest
            readAnswers := rrest
            log := s.log ++ scanTrace s.params candidates qs })) ∧
    (qs.length < 16 → s.params.resolverErr = .propagate → q.errs = true →
      s.writeAnswers = (qs ++ [q]).flatMap ProbeRun.writes ++ wrest →
      s.readAnswers = (qs ++ [q]).flatMap ProbeRun.reads ++ rrest →
      ∃ t, exec .resolve s = .next t ∧
        settled t = settled (ended .transportError
          { s with
            writeAnswers := wrest
            readAnswers := rrest
            log := s.log ++ scanTrace s.params candidates (qs ++ [q]) }))

/-- R81, R82: the acceptance condition, on the unsigned readbacks. -/
def Obligations.ProbeAcceptsTheSignature : Prop :=
  ∀ r1 r2 : Byte, signature (r1.extractLsb' 0 4) r2 = true ↔ r1.toNat % 16 = 7 ∧ r2.toNat = 0

/-- R71, R43: the probe writes carry P_PROBE1_BYTES bytes of 0xFF and P_PROBE2_BYTES bytes of 0x00, and a bus write sends
the least significant byte first. -/
def Obligations.ProbePatterns : Prop :=
  (∀ p : Params, onesProbe p = List.replicate p.probeWidths.first 0xFF#8 ∧
    zeroProbe p = List.replicate p.probeWidths.second 0x00#8) ∧
  onesProbe Params.default = [0xFF, 0xFF, 0xFF, 0xFF] ∧ zeroProbe Params.default = [0x00, 0x00] ∧
  ∀ n v k : Nat, k < n → (leBytes n v)[k]? = some (BitVec.ofNat 8 (v / 2 ^ (8 * k)))

/-- R89: the resolver's outcome depends only on the transport's answers to its transactions (and the parameters). -/
def Obligations.ResolverDependsOnTheAnswersOnly : Prop :=
  ∀ s1 s2 : State, s1.params = s2.params → s1.writeAnswers = s2.writeAnswers → s1.readAnswers = s2.readAnswers →
    ∃ t1 t2 es1 es2,
      exec .resolve s1 = .next t1 ∧ exec .resolve s2 = .next t2 ∧
      t1.log = s1.log ++ es1 ∧ t2.log = s2.log ++ es2 ∧
      es1.filter PortEvent.counted = es2.filter PortEvent.counted ∧
      t1.seq = t2.seq ∧ t1.writeAnswers = t2.writeAnswers ∧ t1.readAnswers = t2.readAnswers ∧
      (t1.seq = .idle → t1.status = t2.status ∧ (t1.status ≠ 1 → t1.resultAddr = t2.resultAddr))

/-! ## Whole-machine rules -/

/-- R60, R119, R75: a command that ends sends exactly one response, last, laid out as R60 says, and the bridge is IDLE; one
that does not end has sent none and the bridge is BUSY at a port event. -/
def Obligations.OneResponsePerCommand : Prop :=
  ∀ (i : Instr) (s : State), ∃ t es, exec i s = .next t ∧
    ((t.seq = .idle ∧ ∃ w : Word, t.log = s.log ++ es ++ [.response w] ∧ (∀ e ∈ es, e.counted = true) ∧
        w.toNat = t.status.toNat + 2 ^ 4 * t.resultAddr.toNat + 2 ^ 11 * t.addrValid.toNat + 2 ^ 12 * t.bl.toNat +
          2 ^ 13 * t.rs.toNat) ∨
      (t.seq = .busy ∧ t.log = s.log ++ es ∧ (∀ e ∈ es, e.counted = true) ∧ (pendingRequest t).isSome = true))

/-- R8, R26, R40, R51: the record grows by events whose answers are the transport's next answers in order, and SEQ_POS
advances by 1 for each bus write, bus read and delay, an errored transaction included (log 6). The hold on a later delay
comes nearer by 1 for each delay (the model's form, log 2). -/
def Obligations.PortEventsFollowTheAnswers : Prop :=
  ∀ (i : Instr) (s : State), ∃ t es, exec i s = .next t ∧ t.log = s.log ++ es ∧
    s.writeAnswers = es.filterMap PortEvent.writeAnswer? ++ t.writeAnswers ∧
    s.readAnswers = es.filterMap PortEvent.readAnswer? ++ t.readAnswers ∧
    s.delayHold = t.delayHold.map (· + (es.filterMap PortEvent.delay?).length) ∧
    t.seqPos = s.seqPos + (es.filter PortEvent.counted).length

/-- R124, R147: a command ends when the transport answers all its transactions and no delay is held up. -/
def Obligations.AnsweredCommandsEnd : Prop :=
  ∀ (i : Instr) (s : State), s.delayHold = none → writeBound i ≤ s.writeAnswers.length →
    readBound i ≤ s.readAnswers.length → ∃ t, exec i s = .next t ∧ t.seq = .idle

/-- R39, R41, R46: the frame writes, one byte each, go to ADDR, which only INIT sets (to its operand, or to the candidate
it found). While the resolver runs, in RESOLVE and INIT 0 only, the candidates that the scan reaches are written and
read, in its order; nothing else is read. -/
def Obligations.TransactionsGoWhereTheRulesSay : Prop :=
  ∀ (i : Instr) (s : State), ∃ (t : State) (probes es : List PortEvent),
    ScanThenFrames i s t probes es ∧
    InScanOrder (probes.filterMap PortEvent.target?) ∧
    (∀ a bs r, PortEvent.write a bs r ∈ es → a = t.addr ∧ bs.length = 1) ∧
    (needsAddr i = true → t.addr = s.addr) ∧
    (∀ a0, a0 ≠ 0 → i = .init a0 → t.addr = a0)

/-- R21: BL is written by INIT (to 1), BACKLIGHT_ON (to 1) and BACKLIGHT_OFF (to 0) and by nothing else, and every frame
a command writes carries it as bit 3, whatever the transport answers, INIT's bring-up after a scan included. -/
def Obligations.BacklightBitIsInEveryFrame : Prop :=
  ∀ (i : Instr) (s : State), ∃ (t : State) (probes es : List PortEvent),
    ScanThenFrames i s t probes es ∧
    (i ≠ .backlightOn → i ≠ .backlightOff → (∀ a, i ≠ .init a) → t.bl = s.bl) ∧
    (i = .backlightOn → t.bl = (s.addrValid || s.bl)) ∧
    (i = .backlightOff → t.bl = (!s.addrValid && s.bl)) ∧
    (∀ a, i = .init a → t.bl = (t.addrValid || s.bl)) ∧
    ∀ a bs r, PortEvent.write a bs r ∈ es → ∃ b, bs = [b] ∧ b.getLsbD 3 = t.bl

/-- R22, R30: who writes RS, and that every frame carries it as bit 0, whatever the transport answers. A text command
sends six frames with RS clear and the others with RS set; it leaves RS set exactly when its first data byte was
reached, after six frames and their six delays. Every other frame carries the RS that its command leaves. -/
def Obligations.RegisterSelectHasItsWriters : Prop :=
  ∀ (i : Instr) (s : State), ∃ (t : State) (probes es : List PortEvent),
    ScanThenFrames i s t probes es ∧
    (i = .resolve ∨ (∃ p, i = .sendNibble p) → t.rs = s.rs) ∧
    (s.addrValid = false → needsAddr i = true → t.rs = s.rs) ∧
    (s.addrValid = true →
      i ∈ [.displayOn, .displayOff, .clear, .backlightOn, .backlightOff, .scrollLeft, .scrollRight] →
        t.rs = false) ∧
    (s.addrValid = true → ∀ b, (i = .sendCommand b → t.rs = false) ∧ (i = .sendData b → t.rs = true)) ∧
    (∀ a, i = .init a → t.rs = (!t.addrValid && s.rs)) ∧
    (s.addrValid = true → ∀ c r,
      (∀ x, i = .showString c r x → t.rs = (decide (x ≠ []) && decide (12 ≤ (es.filter PortEvent.counted).length))) ∧
      (∀ n, i = .showNumber c r n → t.rs = decide (12 ≤ (es.filter PortEvent.counted).length))) ∧
    ((∃ c r x, i = .showString c r x) ∨ (∃ c r n, i = .showNumber c r n) →
      ∀ (j : Nat) (b : Byte), (es.filterMap PortEvent.frame?)[j]? = some b → b.getLsbD 0 = decide (6 ≤ j)) ∧
    ((∀ c r x, i ≠ .showString c r x) → (∀ c r n, i ≠ .showNumber c r n) →
      ∀ a bs r, PortEvent.write a bs r ∈ es → ∃ b, bs = [b] ∧ b.getLsbD 0 = t.rs)

/-- R19, R20, R24: only INIT writes ADDR and ADDR_VALID; only INIT and RESOLVE write RESULT_ADDR. -/
def Obligations.AddressRegistersHaveTheirWriters : Prop :=
  ∀ (i : Instr) (s : State), ∃ t, exec i s = .next t ∧
    ((∀ a, i ≠ .init a) → t.addr = s.addr ∧ t.addrValid = s.addrValid ∧
      (i ≠ .resolve → t.resultAddr = s.resultAddr))

/-- R27 and the parameters of R7: no command touches the command latch, the command port or the parameters. In the
model's own terms: nor the accepting flag (log 8), the reset input and the record of abandoned requests (log 9), nor does
it hold a delay or release a held one (log 2; how near the held one comes is PortEventsFollowTheAnswers). -/
def Obligations.CommandsLeaveTheLatchAndThePortsAlone : Prop :=
  ∀ (i : Instr) (s : State), ∃ t, exec i s = .next t ∧
    t.cmd = s.cmd ∧ t.opnd = s.opnd ∧ t.hostWords = s.hostWords ∧ t.accepting = s.accepting ∧ t.params = s.params ∧
    t.delayHold.isSome = s.delayHold.isSome ∧ t.resetPin = s.resetPin ∧ t.abandoned = s.abandoned

/-- R36, R61, U14: a host reads back from a response what the registers hold; a reserved status code is a fault of
the reader. -/
def Obligations.ResponseReadsBack : Prop :=
  (∀ (s : State) (st : Status), s.status = st.code →
    readResponse (responseWord s) = .ok ⟨st, s.resultAddr, s.addrValid, s.bl, s.rs⟩) ∧
  ∀ w : Word, 5 ≤ (w.extractLsb' 0 4).toNat → readResponse w = .error (.reservedStatusCode (w.extractLsb' 0 4))

/-! ## The assembler (30 R72 to R74) -/

/-- R73: the assembler accepts exactly the operands that lie in their fields, those of the pseudo-instructions
included; a line without operands is always accepted. -/
def Obligations.AssemblerChecksRanges : Prop :=
  (∀ a, Assembles (.init a) ↔ 0 ≤ a ∧ a ≤ 127) ∧
  (∀ b, (Assembles (.sendCommand b) ↔ InByte b) ∧ (Assembles (.sendData b) ↔ InByte b) ∧
    (Assembles (.sendNibble b) ↔ InByte b) ∧ (Assembles (.putChar b) ↔ InByte b)) ∧
  (∀ c r, Assembles (.setCursor c r) ↔ InByte c ∧ InByte r) ∧
  (∀ c r t, Assembles (.showString c r t) ↔ InByte c ∧ InByte r ∧ t.length ≤ 4095) ∧
  (∀ c r n, Assembles (.showNumber c r n) ↔ InByte c ∧ InByte r ∧ -2147483648 ≤ n ∧ n ≤ 2147483647) ∧
  ∀ l ∈ ([.displayOn, .displayOff, .clear, .backlightOn, .backlightOff, .scrollLeft, .scrollRight, .resolve,
    .initAuto] : List AsmLine), Assembles l

/-- R72, R74: every line that is assembled decodes to the command with the operands as written, a pseudo-instruction to
the command it stands for; `.word` gives the word itself. -/
def Obligations.AssembledLinesDecode : Prop :=
  (∀ a, Assembles (.init a) → ∃ v : Addr, AssemblesTo (.init a) (.init v) ∧ (v.toNat : Int) = a) ∧
  (∀ c r t, Assembles (.showString c r t) →
    ∃ col row : Byte, AssemblesTo (.showString c r t) (.showString col row t) ∧
      (col.toNat : Int) = c ∧ (row.toNat : Int) = r) ∧
  (∀ c r n, Assembles (.showNumber c r n) →
    ∃ (col row : Byte) (v : Word), AssemblesTo (.showNumber c r n) (.showNumber col row v) ∧
      (col.toNat : Int) = c ∧ (row.toNat : Int) = r ∧ v.toInt = n) ∧
  (∀ b, (Assembles (.sendCommand b) →
      ∃ v : Byte, AssemblesTo (.sendCommand b) (.sendCommand v) ∧ (v.toNat : Int) = b) ∧
    (Assembles (.sendData b) → ∃ v : Byte, AssemblesTo (.sendData b) (.sendData v) ∧ (v.toNat : Int) = b) ∧
    (Assembles (.sendNibble b) → ∃ v : Byte, AssemblesTo (.sendNibble b) (.sendNibble v) ∧ (v.toNat : Int) = b) ∧
    (Assembles (.putChar b) → ∃ v : Byte, AssemblesTo (.putChar b) (.sendData v) ∧ (v.toNat : Int) = b)) ∧
  (∀ c r, Assembles (.setCursor c r) →
    ∃ v : Byte, AssemblesTo (.setCursor c r) (.sendCommand v) ∧
      (v.toNat : Int) = ((if r ≠ 0 then 0xC0 else 0x80) + c) % 256) ∧
  (∀ l i, (l, i) ∈ ([(.displayOn, .displayOn), (.displayOff, .displayOff), (.clear, .clear),
      (.backlightOn, .backlightOn), (.backlightOff, .backlightOff), (.scrollLeft, .scrollLeft),
      (.scrollRight, .scrollRight), (.resolve, .resolve), (.initAuto, .init 0)] : List (AsmLine × Instr)) →
    AssemblesTo l i) ∧
  ∀ w ws, assembleLine (.word w) = .ok ws → ∃ v : Word, ws = [v] ∧ (v.toNat : Int) = w
end

