-- ==== Sys2Proof/Laws/Decode.lean ====
section
/-! SUPPORT. The fields of an assembled command word and the bytes of a packed operand word (30 R57, R62). -/

namespace Sys2Proof

section
variable (op : BitVec 4) (a b : Byte) (l : BitVec 12)

@[simp] theorem fieldOp_mkWord : fieldOp (mkWord op a b l) = op := by
  apply BitVec.eq_of_getLsbD_eq; intro i hi
  simp only [fieldOp, mkWord, BitVec.getLsbD_extractLsb', BitVec.getLsbD_append, hi, decide_true, Bool.true_and]
  split_ifs <;> first | omega | (congr 1; omega)

@[simp] theorem fieldA_mkWord : fieldA (mkWord op a b l) = a := by
  apply BitVec.eq_of_getLsbD_eq; intro i hi
  simp only [fieldA, mkWord, BitVec.getLsbD_extractLsb', BitVec.getLsbD_append, hi, decide_true, Bool.true_and]
  split_ifs <;> first | omega | (congr 1; omega)

@[simp] theorem fieldB_mkWord : fieldB (mkWord op a b l) = b := by
  apply BitVec.eq_of_getLsbD_eq; intro i hi
  simp only [fieldB, mkWord, BitVec.getLsbD_extractLsb', BitVec.getLsbD_append, hi, decide_true, Bool.true_and]
  split_ifs <;> first | omega | (congr 1; omega)

@[simp] theorem fieldL_mkWord : fieldL (mkWord op a b l) = l := by
  apply BitVec.eq_of_getLsbD_eq; intro i hi
  simp only [fieldL, mkWord, BitVec.getLsbD_extractLsb', BitVec.getLsbD_append, hi, decide_true, Bool.true_and]
  split_ifs <;> first | omega | (congr 1; omega)

/-- The address operand is the low seven bits of field A (R58). -/
theorem fieldAddr_eq (w : Word) : fieldAddr w = (fieldA w).setWidth 7 := by
  apply BitVec.eq_of_getLsbD_eq; intro i hi
  have : i < 8 := by omega
  simp [fieldAddr, fieldA, hi, this]

end

/-- The bytes of a packed word, in text order (R62). -/
@[simp] theorem wordBytes_packWord (a b c d : Byte) : wordBytes (packWord a b c d) = [a, b, c, d] := by
  simp only [wordBytes, packWord, List.cons.injEq, and_true]
  refine ⟨?_, ?_, ?_, ?_⟩ <;>
  · apply BitVec.eq_of_getLsbD_eq; intro i hi
    simp only [BitVec.getLsbD_extractLsb', BitVec.getLsbD_append, hi, decide_true, Bool.true_and]
    split_ifs <;> first | omega | (congr 1; omega)

/-- A text takes `ceil(L/4)` operand words (R62). -/
theorem packText_length (t : List Byte) : (packText t).length = (t.length + 3) / 4 := by
  induction t using packText.induct with
  | case1 => simp [packText]
  | case2 a => simp [packText]
  | case3 a b => simp [packText]
  | case4 a b c => simp [packText]
  | case5 a b c d rest ih => simp only [packText, List.length_cons, ih]; omega

/-- How many operand words a command word asks for, by its opcode and length fields (R64). -/
theorem operandWords_mkWord (op : BitVec 4) (a b : Byte) (l : BitVec 12) :
    operandWords (mkWord op a b l) =
      match op.toNat with
      | 0x2 => (l.toNat + 3) / 4
      | 0x3 => 1
      | _ => 0 := by
  rw [operandWords, fieldOp_mkWord, fieldL_mkWord] <;> rfl

end Sys2Proof
end

