-- ==== Sys2Proof/Laws/State.lean ====
section
/-! SUPPORT. What each update of the state does to each field: one lemma per field, true by rfl. -/

namespace Sys2Proof.Machine

variable (s : State)

/-! ## finish -/

@[simp] theorem finish_addr (st : Status) : (finish st s).addr = s.addr := rfl
@[simp] theorem finish_addrValid (st : Status) : (finish st s).addrValid = s.addrValid := rfl
@[simp] theorem finish_bl (st : Status) : (finish st s).bl = s.bl := rfl
@[simp] theorem finish_rs (st : Status) : (finish st s).rs = s.rs := rfl
@[simp] theorem finish_status (st : Status) : (finish st s).status = st.code := rfl
@[simp] theorem finish_resultAddr (st : Status) : (finish st s).resultAddr = s.resultAddr := rfl
@[simp] theorem finish_seq (st : Status) : (finish st s).seq = .idle := rfl
@[simp] theorem finish_seqPos (st : Status) : (finish st s).seqPos = s.seqPos := rfl
@[simp] theorem finish_cmd (st : Status) : (finish st s).cmd = s.cmd := rfl
@[simp] theorem finish_opnd (st : Status) : (finish st s).opnd = s.opnd := rfl
@[simp] theorem finish_frame (st : Status) : (finish st s).frame = s.frame := rfl
@[simp] theorem finish_cand (st : Status) : (finish st s).cand = s.cand := rfl
@[simp] theorem finish_win (st : Status) : (finish st s).win = s.win := rfl
@[simp] theorem finish_d1 (st : Status) : (finish st s).d1 = s.d1 := rfl
@[simp] theorem finish_d2 (st : Status) : (finish st s).d2 = s.d2 := rfl
@[simp] theorem finish_prog (st : Status) : (finish st s).prog = Prog.nothing := rfl
@[simp] theorem finish_accepting (st : Status) : (finish st s).accepting = s.accepting := rfl
@[simp] theorem finish_params (st : Status) : (finish st s).params = s.params := rfl
@[simp] theorem finish_hostWords (st : Status) : (finish st s).hostWords = s.hostWords := rfl
@[simp] theorem finish_writeAnswers (st : Status) : (finish st s).writeAnswers = s.writeAnswers := rfl
@[simp] theorem finish_readAnswers (st : Status) : (finish st s).readAnswers = s.readAnswers := rfl
@[simp] theorem finish_delayHold (st : Status) : (finish st s).delayHold = s.delayHold := rfl
@[simp] theorem finish_resetPin (st : Status) : (finish st s).resetPin = s.resetPin := rfl
@[simp] theorem finish_log (st : Status) : (finish st s).log = s.log ++ [.response (responseWord { s with status := st.code })] := rfl
@[simp] theorem finish_abandoned (st : Status) : (finish st s).abandoned = s.abandoned := rfl

/-! ## emit -/

@[simp] theorem emit_addr (e : PortEvent) : (emit e s).addr = s.addr := rfl
@[simp] theorem emit_addrValid (e : PortEvent) : (emit e s).addrValid = s.addrValid := rfl
@[simp] theorem emit_bl (e : PortEvent) : (emit e s).bl = s.bl := rfl
@[simp] theorem emit_rs (e : PortEvent) : (emit e s).rs = s.rs := rfl
@[simp] theorem emit_status (e : PortEvent) : (emit e s).status = s.status := rfl
@[simp] theorem emit_resultAddr (e : PortEvent) : (emit e s).resultAddr = s.resultAddr := rfl
@[simp] theorem emit_seq (e : PortEvent) : (emit e s).seq = s.seq := rfl
@[simp] theorem emit_seqPos (e : PortEvent) : (emit e s).seqPos = s.seqPos + 1 := rfl
@[simp] theorem emit_cmd (e : PortEvent) : (emit e s).cmd = s.cmd := rfl
@[simp] theorem emit_opnd (e : PortEvent) : (emit e s).opnd = s.opnd := rfl
@[simp] theorem emit_frame (e : PortEvent) : (emit e s).frame = s.frame := rfl
@[simp] theorem emit_cand (e : PortEvent) : (emit e s).cand = s.cand := rfl
@[simp] theorem emit_win (e : PortEvent) : (emit e s).win = s.win := rfl
@[simp] theorem emit_d1 (e : PortEvent) : (emit e s).d1 = s.d1 := rfl
@[simp] theorem emit_d2 (e : PortEvent) : (emit e s).d2 = s.d2 := rfl
@[simp] theorem emit_prog (e : PortEvent) : (emit e s).prog = s.prog := rfl
@[simp] theorem emit_accepting (e : PortEvent) : (emit e s).accepting = s.accepting := rfl
@[simp] theorem emit_params (e : PortEvent) : (emit e s).params = s.params := rfl
@[simp] theorem emit_hostWords (e : PortEvent) : (emit e s).hostWords = s.hostWords := rfl
@[simp] theorem emit_writeAnswers (e : PortEvent) : (emit e s).writeAnswers = s.writeAnswers := rfl
@[simp] theorem emit_readAnswers (e : PortEvent) : (emit e s).readAnswers = s.readAnswers := rfl
@[simp] theorem emit_delayHold (e : PortEvent) : (emit e s).delayHold = s.delayHold := rfl
@[simp] theorem emit_resetPin (e : PortEvent) : (emit e s).resetPin = s.resetPin := rfl
@[simp] theorem emit_log (e : PortEvent) : (emit e s).log = s.log ++ [e] := rfl
@[simp] theorem emit_abandoned (e : PortEvent) : (emit e s).abandoned = s.abandoned := rfl

/-! ## waitAt -/

@[simp] theorem waitAt_addr (p : Prog) : (waitAt p s).addr = s.addr := rfl
@[simp] theorem waitAt_addrValid (p : Prog) : (waitAt p s).addrValid = s.addrValid := rfl
@[simp] theorem waitAt_bl (p : Prog) : (waitAt p s).bl = s.bl := rfl
@[simp] theorem waitAt_rs (p : Prog) : (waitAt p s).rs = s.rs := rfl
@[simp] theorem waitAt_status (p : Prog) : (waitAt p s).status = s.status := rfl
@[simp] theorem waitAt_resultAddr (p : Prog) : (waitAt p s).resultAddr = s.resultAddr := rfl
@[simp] theorem waitAt_seq (p : Prog) : (waitAt p s).seq = .busy := rfl
@[simp] theorem waitAt_seqPos (p : Prog) : (waitAt p s).seqPos = s.seqPos := rfl
@[simp] theorem waitAt_cmd (p : Prog) : (waitAt p s).cmd = s.cmd := rfl
@[simp] theorem waitAt_opnd (p : Prog) : (waitAt p s).opnd = s.opnd := rfl
@[simp] theorem waitAt_frame (p : Prog) : (waitAt p s).frame = s.frame := rfl
@[simp] theorem waitAt_cand (p : Prog) : (waitAt p s).cand = s.cand := rfl
@[simp] theorem waitAt_win (p : Prog) : (waitAt p s).win = s.win := rfl
@[simp] theorem waitAt_d1 (p : Prog) : (waitAt p s).d1 = s.d1 := rfl
@[simp] theorem waitAt_d2 (p : Prog) : (waitAt p s).d2 = s.d2 := rfl
@[simp] theorem waitAt_prog (p : Prog) : (waitAt p s).prog = p := rfl
@[simp] theorem waitAt_accepting (p : Prog) : (waitAt p s).accepting = s.accepting := rfl
@[simp] theorem waitAt_params (p : Prog) : (waitAt p s).params = s.params := rfl
@[simp] theorem waitAt_hostWords (p : Prog) : (waitAt p s).hostWords = s.hostWords := rfl
@[simp] theorem waitAt_writeAnswers (p : Prog) : (waitAt p s).writeAnswers = s.writeAnswers := rfl
@[simp] theorem waitAt_readAnswers (p : Prog) : (waitAt p s).readAnswers = s.readAnswers := rfl
@[simp] theorem waitAt_delayHold (p : Prog) : (waitAt p s).delayHold = s.delayHold := rfl
@[simp] theorem waitAt_resetPin (p : Prog) : (waitAt p s).resetPin = s.resetPin := rfl
@[simp] theorem waitAt_log (p : Prog) : (waitAt p s).log = s.log := rfl
@[simp] theorem waitAt_abandoned (p : Prog) : (waitAt p s).abandoned = s.abandoned := rfl

/-! ## latchCommand -/

@[simp] theorem latchCommand_addr (w : Word) (rest : List Word) : (latchCommand w rest s).addr = s.addr := rfl
@[simp] theorem latchCommand_addrValid (w : Word) (rest : List Word) : (latchCommand w rest s).addrValid = s.addrValid := rfl
@[simp] theorem latchCommand_bl (w : Word) (rest : List Word) : (latchCommand w rest s).bl = s.bl := rfl
@[simp] theorem latchCommand_rs (w : Word) (rest : List Word) : (latchCommand w rest s).rs = s.rs := rfl
@[simp] theorem latchCommand_status (w : Word) (rest : List Word) : (latchCommand w rest s).status = s.status := rfl
@[simp] theorem latchCommand_resultAddr (w : Word) (rest : List Word) : (latchCommand w rest s).resultAddr = s.resultAddr := rfl
@[simp] theorem latchCommand_seq (w : Word) (rest : List Word) : (latchCommand w rest s).seq = s.seq := rfl
@[simp] theorem latchCommand_seqPos (w : Word) (rest : List Word) : (latchCommand w rest s).seqPos = s.seqPos := rfl
@[simp] theorem latchCommand_cmd (w : Word) (rest : List Word) : (latchCommand w rest s).cmd = w := rfl
@[simp] theorem latchCommand_opnd (w : Word) (rest : List Word) : (latchCommand w rest s).opnd = [] := rfl
@[simp] theorem latchCommand_frame (w : Word) (rest : List Word) : (latchCommand w rest s).frame = s.frame := rfl
@[simp] theorem latchCommand_cand (w : Word) (rest : List Word) : (latchCommand w rest s).cand = s.cand := rfl
@[simp] theorem latchCommand_win (w : Word) (rest : List Word) : (latchCommand w rest s).win = s.win := rfl
@[simp] theorem latchCommand_d1 (w : Word) (rest : List Word) : (latchCommand w rest s).d1 = s.d1 := rfl
@[simp] theorem latchCommand_d2 (w : Word) (rest : List Word) : (latchCommand w rest s).d2 = s.d2 := rfl
@[simp] theorem latchCommand_prog (w : Word) (rest : List Word) : (latchCommand w rest s).prog = s.prog := rfl
@[simp] theorem latchCommand_accepting (w : Word) (rest : List Word) : (latchCommand w rest s).accepting = true := rfl
@[simp] theorem latchCommand_params (w : Word) (rest : List Word) : (latchCommand w rest s).params = s.params := rfl
@[simp] theorem latchCommand_hostWords (w : Word) (rest : List Word) : (latchCommand w rest s).hostWords = rest := rfl
@[simp] theorem latchCommand_writeAnswers (w : Word) (rest : List Word) : (latchCommand w rest s).writeAnswers = s.writeAnswers := rfl
@[simp] theorem latchCommand_readAnswers (w : Word) (rest : List Word) : (latchCommand w rest s).readAnswers = s.readAnswers := rfl
@[simp] theorem latchCommand_delayHold (w : Word) (rest : List Word) : (latchCommand w rest s).delayHold = s.delayHold := rfl
@[simp] theorem latchCommand_resetPin (w : Word) (rest : List Word) : (latchCommand w rest s).resetPin = s.resetPin := rfl
@[simp] theorem latchCommand_log (w : Word) (rest : List Word) : (latchCommand w rest s).log = s.log := rfl
@[simp] theorem latchCommand_abandoned (w : Word) (rest : List Word) : (latchCommand w rest s).abandoned = s.abandoned := rfl

/-! ## latchOperands -/

@[simp] theorem latchOperands_addr : (latchOperands s).addr = s.addr := rfl
@[simp] theorem latchOperands_addrValid : (latchOperands s).addrValid = s.addrValid := rfl
@[simp] theorem latchOperands_bl : (latchOperands s).bl = s.bl := rfl
@[simp] theorem latchOperands_rs : (latchOperands s).rs = s.rs := rfl
@[simp] theorem latchOperands_status : (latchOperands s).status = s.status := rfl
@[simp] theorem latchOperands_resultAddr : (latchOperands s).resultAddr = s.resultAddr := rfl
@[simp] theorem latchOperands_seq : (latchOperands s).seq = s.seq := rfl
@[simp] theorem latchOperands_seqPos : (latchOperands s).seqPos = s.seqPos := rfl
@[simp] theorem latchOperands_cmd : (latchOperands s).cmd = s.cmd := rfl
@[simp] theorem latchOperands_opnd : (latchOperands s).opnd = s.opnd ++ s.hostWords.take (operandsMissing s) := rfl
@[simp] theorem latchOperands_frame : (latchOperands s).frame = s.frame := rfl
@[simp] theorem latchOperands_cand : (latchOperands s).cand = s.cand := rfl
@[simp] theorem latchOperands_win : (latchOperands s).win = s.win := rfl
@[simp] theorem latchOperands_d1 : (latchOperands s).d1 = s.d1 := rfl
@[simp] theorem latchOperands_d2 : (latchOperands s).d2 = s.d2 := rfl
@[simp] theorem latchOperands_prog : (latchOperands s).prog = s.prog := rfl
@[simp] theorem latchOperands_accepting : (latchOperands s).accepting = s.accepting := rfl
@[simp] theorem latchOperands_params : (latchOperands s).params = s.params := rfl
@[simp] theorem latchOperands_hostWords : (latchOperands s).hostWords = s.hostWords.drop (operandsMissing s) := rfl
@[simp] theorem latchOperands_writeAnswers : (latchOperands s).writeAnswers = s.writeAnswers := rfl
@[simp] theorem latchOperands_readAnswers : (latchOperands s).readAnswers = s.readAnswers := rfl
@[simp] theorem latchOperands_delayHold : (latchOperands s).delayHold = s.delayHold := rfl
@[simp] theorem latchOperands_resetPin : (latchOperands s).resetPin = s.resetPin := rfl
@[simp] theorem latchOperands_log : (latchOperands s).log = s.log := rfl
@[simp] theorem latchOperands_abandoned : (latchOperands s).abandoned = s.abandoned := rfl

/-! ## beginCommand -/

@[simp] theorem beginCommand_addr : (beginCommand s).addr = s.addr := rfl
@[simp] theorem beginCommand_addrValid : (beginCommand s).addrValid = s.addrValid := rfl
@[simp] theorem beginCommand_bl : (beginCommand s).bl = s.bl := rfl
@[simp] theorem beginCommand_rs : (beginCommand s).rs = s.rs := rfl
@[simp] theorem beginCommand_status : (beginCommand s).status = s.status := rfl
@[simp] theorem beginCommand_resultAddr : (beginCommand s).resultAddr = s.resultAddr := rfl
@[simp] theorem beginCommand_seq : (beginCommand s).seq = .busy := rfl
@[simp] theorem beginCommand_seqPos : (beginCommand s).seqPos = 0 := rfl
@[simp] theorem beginCommand_cmd : (beginCommand s).cmd = s.cmd := rfl
@[simp] theorem beginCommand_opnd : (beginCommand s).opnd = s.opnd := rfl
@[simp] theorem beginCommand_frame : (beginCommand s).frame = s.frame := rfl
@[simp] theorem beginCommand_cand : (beginCommand s).cand = s.cand := rfl
@[simp] theorem beginCommand_win : (beginCommand s).win = s.win := rfl
@[simp] theorem beginCommand_d1 : (beginCommand s).d1 = s.d1 := rfl
@[simp] theorem beginCommand_d2 : (beginCommand s).d2 = s.d2 := rfl
@[simp] theorem beginCommand_prog : (beginCommand s).prog = s.prog := rfl
@[simp] theorem beginCommand_accepting : (beginCommand s).accepting = false := rfl
@[simp] theorem beginCommand_params : (beginCommand s).params = s.params := rfl
@[simp] theorem beginCommand_hostWords : (beginCommand s).hostWords = s.hostWords := rfl
@[simp] theorem beginCommand_writeAnswers : (beginCommand s).writeAnswers = s.writeAnswers := rfl
@[simp] theorem beginCommand_readAnswers : (beginCommand s).readAnswers = s.readAnswers := rfl
@[simp] theorem beginCommand_delayHold : (beginCommand s).delayHold = s.delayHold := rfl
@[simp] theorem beginCommand_resetPin : (beginCommand s).resetPin = s.resetPin := rfl
@[simp] theorem beginCommand_log : (beginCommand s).log = s.log := rfl
@[simp] theorem beginCommand_abandoned : (beginCommand s).abandoned = s.abandoned := rfl

/-! ## takeReset -/

@[simp] theorem takeReset_addr : (takeReset s).addr = 0 := rfl
@[simp] theorem takeReset_addrValid : (takeReset s).addrValid = false := rfl
@[simp] theorem takeReset_bl : (takeReset s).bl = false := rfl
@[simp] theorem takeReset_rs : (takeReset s).rs = false := rfl
@[simp] theorem takeReset_status : (takeReset s).status = 0 := rfl
@[simp] theorem takeReset_resultAddr : (takeReset s).resultAddr = 0 := rfl
@[simp] theorem takeReset_seq : (takeReset s).seq = .idle := rfl
@[simp] theorem takeReset_seqPos : (takeReset s).seqPos = 0 := rfl
@[simp] theorem takeReset_cmd : (takeReset s).cmd = 0 := rfl
@[simp] theorem takeReset_opnd : (takeReset s).opnd = [] := rfl
@[simp] theorem takeReset_frame : (takeReset s).frame = 0 := rfl
@[simp] theorem takeReset_cand : (takeReset s).cand = 0 := rfl
@[simp] theorem takeReset_win : (takeReset s).win = .a := rfl
@[simp] theorem takeReset_d1 : (takeReset s).d1 = 0 := rfl
@[simp] theorem takeReset_d2 : (takeReset s).d2 = 0 := rfl
@[simp] theorem takeReset_prog : (takeReset s).prog = Prog.nothing := rfl
@[simp] theorem takeReset_accepting : (takeReset s).accepting = false := rfl
@[simp] theorem takeReset_params : (takeReset s).params = s.params := rfl
@[simp] theorem takeReset_hostWords : (takeReset s).hostWords = s.hostWords := rfl
@[simp] theorem takeReset_writeAnswers : (takeReset s).writeAnswers = s.writeAnswers := rfl
@[simp] theorem takeReset_readAnswers : (takeReset s).readAnswers = s.readAnswers := rfl
@[simp] theorem takeReset_delayHold : (takeReset s).delayHold = s.delayHold := rfl
@[simp] theorem takeReset_resetPin : (takeReset s).resetPin = false := rfl
@[simp] theorem takeReset_log : (takeReset s).log = s.log := rfl
@[simp] theorem takeReset_abandoned : (takeReset s).abandoned = s.abandoned ++ (pendingRequest s).toList := rfl

/-! ## State writes of a micro-program -/

@[simp] theorem apply_addr (v : Addr) : (RegWrite.addr v).apply s = { s with addr := v } := rfl
@[simp] theorem apply_addrValid (v : Bool) : (RegWrite.addrValid v).apply s = { s with addrValid := v } := rfl
@[simp] theorem apply_bl (v : Bool) : (RegWrite.bl v).apply s = { s with bl := v } := rfl
@[simp] theorem apply_rs (v : Bool) : (RegWrite.rs v).apply s = { s with rs := v } := rfl
@[simp] theorem apply_resultAddr (v : Addr) : (RegWrite.resultAddr v).apply s = { s with resultAddr := v } := rfl
@[simp] theorem apply_win (v : Window) : (RegWrite.win v).apply s = { s with win := v } := rfl
@[simp] theorem apply_cand (v : Addr) : (RegWrite.cand v).apply s = { s with cand := v } := rfl

end Sys2Proof.Machine
end

