-- ==== Sys2Proof/Laws/Ops.lean ====
section
/-! SUPPORT. What the shared operations can do: the bus primitives, a probe, a micro-program, the framer's procedures. -/

namespace Sys2Proof.Machine

/-! ## Bus primitives (00_scope.md R12, R13) -/

theorem memWrite_ok (a : Addr) (bs : List Byte) (s : State) (rest : List WriteAnswer)
    (h : s.writeAnswers = .ok :: rest) :
    memWrite a bs s = .ok () (emit (.write a bs .ok) { s with writeAnswers := rest }) := by
  simp [memWrite, h]

theorem memWrite_error (a : Addr) (bs : List Byte) (s : State) (rest : List WriteAnswer)
    (h : s.writeAnswers = .error :: rest) :
    memWrite a bs s = .error (emit (.write a bs .error) { s with writeAnswers := rest }) := by
  simp [memWrite, h]

theorem memWrite_wait (a : Addr) (bs : List Byte) (s : State) (h : s.writeAnswers = []) :
    memWrite a bs s = .wait := by
  simp [memWrite, h]

theorem memRead_ok (a : Addr) (s : State) (b : Byte) (rest : List ReadAnswer)
    (h : s.readAnswers = .ok b :: rest) :
    memRead a s = .ok b (emit (.read a (.ok b)) { s with readAnswers := rest }) := by
  simp [memRead, h]

theorem memRead_error (a : Addr) (s : State) (rest : List ReadAnswer) (h : s.readAnswers = .error :: rest) :
    memRead a s = .error (emit (.read a .error) { s with readAnswers := rest }) := by
  simp [memRead, h]

theorem memRead_wait (a : Addr) (s : State) (h : s.readAnswers = []) : memRead a s = .wait := by
  simp [memRead, h]

/-- Everything a bus write can do: wait for its answer, or take the next one and record the write. -/
theorem memWrite_cases (a : Addr) (bs : List Byte) (s : State) :
    (s.writeAnswers = [] ∧ memWrite a bs s = .wait) ∨
    (∃ rest, s.writeAnswers = .ok :: rest ∧
      memWrite a bs s = .ok () (emit (.write a bs .ok) { s with writeAnswers := rest })) ∨
    (∃ rest, s.writeAnswers = .error :: rest ∧
      memWrite a bs s = .error (emit (.write a bs .error) { s with writeAnswers := rest })) := by
  rcases h : s.writeAnswers with _ | ⟨_ | _, rest⟩
  · exact .inl ⟨rfl, memWrite_wait a bs s h⟩
  · exact .inr (.inl ⟨rest, rfl, memWrite_ok a bs s rest h⟩)
  · exact .inr (.inr ⟨rest, rfl, memWrite_error a bs s rest h⟩)

/-- Everything a bus read can do: wait for its answer, or take the next one and record the read. -/
theorem memRead_cases (a : Addr) (s : State) :
    (s.readAnswers = [] ∧ memRead a s = .wait) ∨
    (∃ b rest, s.readAnswers = .ok b :: rest ∧
      memRead a s = .ok b (emit (.read a (.ok b)) { s with readAnswers := rest })) ∨
    (∃ rest, s.readAnswers = .error :: rest ∧
      memRead a s = .error (emit (.read a .error) { s with readAnswers := rest })) := by
  rcases h : s.readAnswers with _ | ⟨⟨b⟩ | _, rest⟩
  · exact .inl ⟨rfl, memRead_wait a s h⟩
  · exact .inr (.inl ⟨b, rest, rfl, memRead_ok a s b rest h⟩)
  · exact .inr (.inr ⟨rest, rfl, memRead_error a s rest h⟩)

/-- Everything a delay can do: be still running, or complete, the hold on a later delay then one delay nearer. -/
theorem sleepFor_cases (ms : Nat) (s : State) :
    (s.delayHold = some 0 ∧ sleepFor ms s = none) ∨
    (∃ h, s.delayHold = h.map (· + 1) ∧ sleepFor ms s = some (emit (.delay ms) { s with delayHold := h })) := by
  rcases s with ⟨⟩
  rename_i h _ _ _
  rcases h with _ | _ | n
  · exact .inr ⟨none, rfl, rfl⟩
  · exact .inl ⟨rfl, rfl⟩
  · exact .inr ⟨some n, rfl, rfl⟩

/-! ## One equation of `runProg` per statement of a micro-program -/

theorem runProg_complete (st : Status) (s : State) : runProg (.complete st) s = finish st s := rfl

theorem runProg_set (w : RegWrite) (k : Prog) (s : State) : runProg (.set w k) s = runProg k (w.apply s) := rfl

theorem runProg_compose (p : Byte) (k : Prog) (s : State) :
    runProg (.compose p k) s = runProg k { s with frame := frameOf s.bl s.rs p } := rfl

theorem runProg_sleep (d : Delay) (k : Prog) (s : State) (h : s.delayHold = none) :
    runProg (.sleep d k) s = runProg k (emit (.delay (delayMs s.params d)) s) := by
  simp [runProg, sleepFor, h]

theorem runProg_sleep_before_hold (d : Delay) (k : Prog) (s : State) (n : Nat) (h : s.delayHold = some (n + 1)) :
    runProg (.sleep d k) s = runProg k (emit (.delay (delayMs s.params d)) { s with delayHold := some n }) := by
  simp [runProg, sleepFor, h]

theorem runProg_sleep_held (d : Delay) (k : Prog) (s : State) (h : s.delayHold = some 0) :
    runProg (.sleep d k) s = waitAt (.sleep d k) s := by
  simp [runProg, sleepFor, h]

/-- A frame write answered with ok, and its settle delay (41 R91). -/
theorem runProg_writeFrame (en : Bool) (k : Prog) (s : State) (rest : List WriteAnswer)
    (hw : s.writeAnswers = .ok :: rest) (hd : s.delayHold = none) :
    runProg (writeFrame en k) s =
      runProg k
        { s with
          writeAnswers := rest
          log := s.log ++ [.write s.addr [strobeByte en s.frame] .ok, .delay s.params.settleMs]
          seqPos := s.seqPos + 2 } := by
  simp [writeFrame, runProg, memWrite_ok _ _ _ _ hw, sleepFor, hd, emit, delayMs]

/-- A frame write answered with error ends the command (41 R91). -/
theorem runProg_writeFrame_error (en : Bool) (k : Prog) (s : State) (rest : List WriteAnswer)
    (hw : s.writeAnswers = .error :: rest) :
    runProg (writeFrame en k) s =
      finish .transportError
        (emit (.write s.addr [strobeByte en s.frame] .error) { s with writeAnswers := rest }) := by
  simp [writeFrame, runProg, memWrite_error _ _ _ _ hw]

/-- `SendNibble(p)` with its three writes answered with ok (41 R92). -/
theorem runProg_sendNibble (p : Byte) (k : Prog) (s : State) (rest : List WriteAnswer)
    (hw : s.writeAnswers = .ok :: .ok :: .ok :: rest) (hd : s.delayHold = none) :
    runProg (sendNibble p k) s =
      runProg k
        { s with
          frame := frameOf s.bl s.rs p
          writeAnswers := rest
          log := s.log ++
            [.write s.addr [frameOf s.bl s.rs p] .ok, .delay s.params.settleMs,
             .write s.addr [frameOf s.bl s.rs p + enBit] .ok, .delay s.params.settleMs,
             .write s.addr [frameOf s.bl s.rs p] .ok, .delay s.params.settleMs]
          seqPos := s.seqPos + 6 } := by
  refine (runProg_writeFrame false _ { s with frame := frameOf s.bl s.rs p } _ hw hd).trans ?_
  refine (runProg_writeFrame true _ _ _ (by rfl) (by exact hd)).trans ?_
  refine (runProg_writeFrame false _ _ _ (by rfl) (by exact hd)).trans ?_
  simp [strobeByte]

/-! ## A probe -/

/-- The state inside the result of a probe. -/
def ProbeResult.state : ProbeResult → State
  | .accept s => s
  | .reject s => s
  | .raised s => s
  | .wait _ s => s

/-- The part of the state no probe touches (40 R86): all but D1, D2, the answers taken, the record and SEQ_POS. -/
def besideProbe (s : State) : State :=
  { s with d1 := 0, d2 := 0, writeAnswers := [], readAnswers := [], log := [], seqPos := 0 }

theorem probeError_state (s : State) : (probeError s).state = s := by
  unfold probeError; split <;> rfl

theorem probeReadSecond_besideProbe (s : State) : besideProbe (probeReadSecond s).state = besideProbe s := by
  unfold probeReadSecond
  rcases memRead_cases s.cand s with ⟨_, h⟩ | ⟨b, rest, _, h⟩ | ⟨rest, _, h⟩ <;> rw [h]
  · rfl
  · dsimp only; split <;> rfl
  · simp [probeError_state, besideProbe, emit]

theorem probeWriteZero_besideProbe (s : State) : besideProbe (probeWriteZero s).state = besideProbe s := by
  unfold probeWriteZero
  rcases memWrite_cases s.cand (zeroProbe s.params) s with ⟨_, h⟩ | ⟨rest, _, h⟩ | ⟨rest, _, h⟩ <;> rw [h]
  · rfl
  · exact probeReadSecond_besideProbe _
  · simp [probeError_state, besideProbe, emit]

theorem probeReadFirst_besideProbe (s : State) : besideProbe (probeReadFirst s).state = besideProbe s := by
  unfold probeReadFirst
  rcases memRead_cases s.cand s with ⟨_, h⟩ | ⟨b, rest, _, h⟩ | ⟨rest, _, h⟩ <;> rw [h]
  · rfl
  · exact probeWriteZero_besideProbe _
  · simp [probeError_state, besideProbe, emit]

theorem probeWriteOnes_besideProbe (s : State) : besideProbe (probeWriteOnes s).state = besideProbe s := by
  unfold probeWriteOnes
  rcases memWrite_cases s.cand (onesProbe s.params) s with ⟨_, h⟩ | ⟨rest, _, h⟩ | ⟨rest, _, h⟩ <;> rw [h]
  · rfl
  · exact probeReadFirst_besideProbe _
  · simp [probeError_state, besideProbe, emit]

/-- A probe touches D1, D2, the answers, the record and SEQ_POS, and nothing else (40 R86). -/
theorem probeFrom_besideProbe (p : ProbeStep) (s : State) : besideProbe (probeFrom p s).state = besideProbe s := by
  cases p with
  | writeOnes => exact probeWriteOnes_besideProbe s
  | readFirst => exact probeReadFirst_besideProbe s
  | writeZero => exact probeWriteZero_besideProbe s
  | readSecond => exact probeReadSecond_besideProbe s

/-! ## What no micro-program touches -/

/-- The fields that no micro-program writes: the command latch, the parameters, the command port, the reset input. -/
structure SameOutside (s t : State) : Prop where
  cmd : t.cmd = s.cmd
  opnd : t.opnd = s.opnd
  accepting : t.accepting = s.accepting
  params : t.params = s.params
  hostWords : t.hostWords = s.hostWords
  resetPin : t.resetPin = s.resetPin
  abandoned : t.abandoned = s.abandoned

theorem SameOutside.trans {s t u : State} (h : SameOutside s t) (k : SameOutside t u) : SameOutside s u :=
  ⟨k.cmd.trans h.cmd, k.opnd.trans h.opnd, k.accepting.trans h.accepting, k.params.trans h.params,
    k.hostWords.trans h.hostWords, k.resetPin.trans h.resetPin,
    k.abandoned.trans h.abandoned⟩

theorem SameOutside.of_besideProbe {s t : State} (h : besideProbe t = besideProbe s) : SameOutside s t := by
  simp only [besideProbe, State.mk.injEq] at h
  exact ⟨by tauto, by tauto, by tauto, by tauto, by tauto, by tauto, by tauto⟩

theorem RegWrite.apply_sameOutside (w : RegWrite) (s : State) : SameOutside s (w.apply s) := by
  cases w <;> exact ⟨rfl, rfl, rfl, rfl, rfl, rfl, rfl⟩

/-- Executing a micro-program leaves alone what lies outside it. -/
theorem runProg_sameOutside (p : Prog) (s : State) : SameOutside s (runProg p s) := by
  induction p generalizing s with
  | complete st => exact ⟨rfl, rfl, rfl, rfl, rfl, rfl, rfl⟩
  | set w k ih => exact (RegWrite.apply_sameOutside w s).trans (ih _)
  | compose p k ih => exact SameOutside.trans (t := { s with frame := frameOf s.bl s.rs p }) ⟨rfl, rfl, rfl, rfl, rfl, rfl, rfl⟩ (ih _)
  | frameWrite en k ih =>
    rw [runProg]
    rcases memWrite_cases s.addr [strobeByte en s.frame] s with ⟨_, h⟩ | ⟨rest, _, h⟩ | ⟨rest, _, h⟩ <;> rw [h]
    · exact ⟨rfl, rfl, rfl, rfl, rfl, rfl, rfl⟩
    · refine SameOutside.trans ?_ (ih _)
      exact ⟨rfl, rfl, rfl, rfl, rfl, rfl, rfl⟩
    · exact ⟨rfl, rfl, rfl, rfl, rfl, rfl, rfl⟩
  | sleep d k ih =>
    rw [runProg]
    rcases sleepFor_cases (delayMs s.params d) s with ⟨_, h⟩ | ⟨h', _, h⟩ <;> rw [h]
    · exact ⟨rfl, rfl, rfl, rfl, rfl, rfl, rfl⟩
    · refine SameOutside.trans ?_ (ih _)
      exact ⟨rfl, rfl, rfl, rfl, rfl, rfl, rfl⟩
  | probe at_ acc rej iha ihr =>
    rw [runProg]
    have hb := probeFrom_besideProbe at_ s
    generalize probeFrom at_ s = r at hb ⊢
    have hs := SameOutside.of_besideProbe hb
    cases r with
    | accept s1 => exact hs.trans (iha _)
    | reject s1 => exact hs.trans (ihr _)
    | raised s1 => exact hs.trans ⟨rfl, rfl, rfl, rfl, rfl, rfl, rfl⟩
    | wait p1 s1 => exact hs.trans ⟨rfl, rfl, rfl, rfl, rfl, rfl, rfl⟩

end Sys2Proof.Machine
end

