-- ==== Sys2Proof/Laws/PerInstr.lean ====
section
/-! SUPPORT. Per instruction: an encoded command has as many words as its command word asks for (30 R64). -/

namespace Sys2Proof.Laws.EncodedLength

/-- The encoding of a well-formed command is one command word followed by exactly the operand words R64 gives it. -/
def Statement (i : Instr) : Prop :=
  i.wf = true → ∃ w ws, encode i = w :: ws ∧ ws.length = operandWords w

theorem init (a : Addr) : Statement (.init a) := fun _ =>
  ⟨_, _, rfl, by simp [operandWords_mkWord]⟩

theorem showString (col row : Byte) (text : List Byte) : Statement (.showString col row text) := fun h =>
  ⟨_, _, rfl, by
    have h : text.length ≤ 4095 := of_decide_eq_true h
    have : text.length % 4096 = text.length := by omega
    simp [operandWords_mkWord, packText_length, this]⟩

theorem showNumber (col row : Byte) (n : Word) : Statement (.showNumber col row n) := fun _ =>
  ⟨_, _, rfl, by simp [operandWords_mkWord]⟩

theorem displayOn : Statement .displayOn := fun _ => ⟨_, _, rfl, by simp [operandWords_mkWord]⟩

theorem displayOff : Statement .displayOff := fun _ => ⟨_, _, rfl, by simp [operandWords_mkWord]⟩

theorem clear : Statement .clear := fun _ => ⟨_, _, rfl, by simp [operandWords_mkWord]⟩

theorem backlightOn : Statement .backlightOn := fun _ => ⟨_, _, rfl, by simp [operandWords_mkWord]⟩

theorem backlightOff : Statement .backlightOff := fun _ => ⟨_, _, rfl, by simp [operandWords_mkWord]⟩

theorem scrollLeft : Statement .scrollLeft := fun _ => ⟨_, _, rfl, by simp [operandWords_mkWord]⟩

theorem scrollRight : Statement .scrollRight := fun _ => ⟨_, _, rfl, by simp [operandWords_mkWord]⟩

theorem sendCommand (b : Byte) : Statement (.sendCommand b) := fun _ =>
  ⟨_, _, rfl, by simp [operandWords_mkWord]⟩

theorem sendData (b : Byte) : Statement (.sendData b) := fun _ =>
  ⟨_, _, rfl, by simp [operandWords_mkWord]⟩

theorem sendNibble (p : Byte) : Statement (.sendNibble p) := fun _ =>
  ⟨_, _, rfl, by simp [operandWords_mkWord]⟩

theorem resolve : Statement .resolve := fun _ => ⟨_, _, rfl, by simp [operandWords_mkWord]⟩

end Sys2Proof.Laws.EncodedLength
end

