-- ==== Sys2Proof/Laws/Step.lean ====
section
/-! SUPPORT. What one step can do, and what executing a command comes to: one inversion lemma each. -/

namespace Sys2Proof.Machine

/-- Everything a step can do: a reset; the command in execution goes on; the port has no whole command yet; a legal
command is executed; an illegal one completes. -/
theorem step_cases (s : State) :
    (s.resetPin = true ∧ step s = .next (takeReset s)) ∨
    (s.resetPin = false ∧ s.seq = .busy ∧ step s = .next (runProg s.prog s)) ∨
    (s.resetPin = false ∧ s.seq = .idle ∧ ∃ s1, fetch s = .notYet s1 ∧ step s = .next s1) ∨
    (s.resetPin = false ∧ s.seq = .idle ∧ ∃ s1 i, fetch s = .command s1 ∧
      decodeCommand s1.cmd s1.opnd = .instr i ∧ step s = exec i s1) ∨
    (s.resetPin = false ∧ s.seq = .idle ∧ ∃ s1 r, fetch s = .command s1 ∧
      decodeCommand s1.cmd s1.opnd = .reject r ∧ step s = .next (finish .illegalCommand s1)) := by
  cases hr : s.resetPin with
  | true => exact .inl ⟨rfl, by simp [step, hr]⟩
  | false =>
    cases hs : s.seq with
    | busy => exact .inr (.inl ⟨rfl, rfl, by simp [step, hr, hs, resume]⟩)
    | idle =>
      cases hf : fetch s with
      | notYet s1 => exact .inr (.inr (.inl ⟨rfl, rfl, s1, rfl, by simp [step, hr, hs, hf]⟩))
      | command s1 =>
        cases hd : decodeCommand s1.cmd s1.opnd with
        | instr i => exact .inr (.inr (.inr (.inl ⟨rfl, rfl, s1, i, rfl, hd, by simp [step, hr, hs, hf, execLatched, hd]⟩)))
        | reject r =>
          exact .inr (.inr (.inr (.inr ⟨rfl, rfl, s1, r, rfl, hd, by
            simp [step, hr, hs, hf, execLatched, hd, illegalCommand]⟩)))

/-- The micro-program of each command. -/
def progOf : Instr → Prog
  | .init a => initProg a
  | .showString col row text => showStringProg col row text
  | .showNumber col row n => showStringProg col row (dec n)
  | .displayOn => sendCommand 0x0C (.complete .ok)
  | .displayOff => sendCommand 0x08 (.complete .ok)
  | .clear => sendCommand 0x01 (.complete .ok)
  | .backlightOn => .set (.bl true) (sendCommand 0x00 (.complete .ok))
  | .backlightOff => .set (.bl false) (sendCommand 0x00 (.complete .ok))
  | .scrollLeft => sendCommand 0x18 (.complete .ok)
  | .scrollRight => sendCommand 0x1C (.complete .ok)
  | .sendCommand b => sendCommand b (.complete .ok)
  | .sendData b => sendData b (.complete .ok)
  | .sendNibble p => sendNibble p (.complete .ok)
  | .resolve => resolveProg

/-- Executing a command is turning it away for want of an address, or running its micro-program. -/
theorem exec_eq (i : Instr) (s : State) :
    exec i s = .next
      (if needsAddr i = true ∧ s.addrValid = false then finish .notInitialized s else runProg (progOf i) s) := by
  cases i <;> cases h : s.addrValid <;>
    simp [exec, needsAddr, progOf, h, whenReady, execInit, execShowString, execShowNumber, execDisplayOn, execDisplayOff,
      execClear, execBacklightOn, execBacklightOff, execScrollLeft, execScrollRight, execSendCommand, execSendData,
      execSendNibble, execResolve]

/-- A micro-program ends IDLE with nothing left, or BUSY at a port event (20 R51). -/
theorem runProg_ends (p : Prog) (s : State) :
    ((runProg p s).seq = .idle ∧ (runProg p s).prog = Prog.nothing) ∨
    ((runProg p s).seq = .busy ∧ (pendingRequest (runProg p s)).isSome = true) := by
  induction p generalizing s with
  | complete st => exact .inl ⟨rfl, rfl⟩
  | set w k ih => exact ih _
  | compose p k ih => exact ih _
  | frameWrite en k ih =>
    rw [runProg]
    rcases memWrite_cases s.addr [strobeByte en s.frame] s with ⟨_, h⟩ | ⟨rest, _, h⟩ | ⟨rest, _, h⟩ <;> rw [h]
    · exact .inr ⟨rfl, rfl⟩
    · exact ih _
    · exact .inl ⟨rfl, rfl⟩
  | sleep d k ih =>
    rw [runProg]
    rcases sleepFor_cases (delayMs s.params d) s with ⟨_, h⟩ | ⟨h', _, h⟩ <;> rw [h]
    · exact .inr ⟨rfl, rfl⟩
    · exact ih _
  | probe at_ acc rej iha ihr =>
    rw [runProg]
    generalize probeFrom at_ s = r
    cases r with
    | accept s1 => exact iha _
    | reject s1 => exact ihr _
    | raised s1 => exact .inl ⟨rfl, rfl⟩
    | wait p1 s1 => exact .inr ⟨rfl, by cases p1 <;> rfl⟩

end Sys2Proof.Machine
end

