-- ==== Sys2Proof/Tests/Slice0.lean ====
section
/-! SUPPORT. Small tests: every expected value is written out in spec/95_test_vectors.md, or in the rule named. -/

namespace Sys2Proof.Tests

open Sys2Proof.Machine

/-! ## WellFormed -/

theorem test_wf_refuses_long_text : (Instr.showString 0 0 (List.replicate 4096 0)).wf = false := by
  rw [Instr.wf, List.length_replicate]; rfl

theorem test_wf_accepts_longest_text : (Instr.showString 0 0 (List.replicate 4095 0)).wf = true := by
  rw [Instr.wf, List.length_replicate]; rfl

/-! ## Decoding (95 section 2.5 and the vectors V1 to V7), each word as the spec writes it -/

theorem test_decode_init : decodeTableWord 32 0x00000271 = some (.init 0x27) := by decide

theorem test_decode_showString :
    decode [0x00201032, 0x00006948, 0x5] = (.instr (.showString 3 1 [0x48, 0x69]), [0x5]) := by decide

theorem test_decode_showNumber :
    decode [0x00001053, 0xFFFFFFF9] = (.instr (.showNumber 5 1 0xFFFFFFF9), []) := by decide

theorem test_decode_displayOn : decodeTableWord 32 0x00000004 = some .displayOn := by decide

theorem test_decode_displayOff : decodeTableWord 32 0x00000005 = some .displayOff := by decide

theorem test_decode_clear : decodeTableWord 32 0x00000006 = some .clear := by decide

theorem test_decode_backlightOn : decodeTableWord 32 0x00000007 = some .backlightOn := by decide

theorem test_decode_backlightOff : decodeTableWord 32 0x00000008 = some .backlightOff := by decide

theorem test_decode_scrollLeft : decodeTableWord 32 0x00000009 = some .scrollLeft := by decide

theorem test_decode_scrollRight : decodeTableWord 32 0x0000000A = some .scrollRight := by decide

theorem test_decode_sendCommand : decodeTableWord 32 0x0000028B = some (.sendCommand 0x28) := by decide

theorem test_decode_sendData : decodeTableWord 32 0x0000041C = some (.sendData 0x41) := by decide

theorem test_decode_sendNibble : decodeTableWord 32 0x00000FFD = some (.sendNibble 0xFF) := by decide

theorem test_decode_resolve : decodeTableWord 32 0x0000000E = some .resolve := by decide

/-- The illegal words of 95 section 2.5. -/
theorem test_decode_illegal :
    [0x00000000, 0x0000000F, 0xFFFFFFFF, 0x00000801, 0x00001001, 0x00100001, 0x00000014, 0x8000000E, 0x00001FFB].map
      (fun w => decodeTableWord 32 w) = List.replicate 9 none := by decide

/-- An illegal SHOW_NUMBER still takes its operand word (95 section 2.5). -/
theorem test_decode_illegal_showNumber_length :
    decode [0x00100003, 0xAAAAAAAA, 0x4] = (.reject .reservedField, [0x4]) := by decide

theorem test_commandLength : [0xFFFFFFF2, 0x00300002, 0x00000003, 0x00100003, 0x00000FFD].map commandLength = [1025, 2, 2, 2, 1] := by
  decide

theorem test_encode_showString : encode (.showString 3 1 [0x48, 0x69]) = [0x00201032, 0x00006948] := by decide

/-! ## Helpers -/

/-- The record left by one command from an empty record. -/
def logOf : Host.Outcome State Fault Refusal → List PortEvent
  | .next t => t.log
  | .fault _ => []
  | .refused _ => []

/-- The bytes of the answered writes, each write a list. -/
def writesOf (o : Host.Outcome State Fault Refusal) : List (List Byte) :=
  (logOf o).filterMap fun e =>
    match e with
    | .write _ bs _ => some bs
    | .read _ _ => none
    | .delay _ => none
    | .response _ => none

/-- The response words. -/
def responsesOf (o : Host.Outcome State Fault Refusal) : List Word :=
  (logOf o).filterMap fun e =>
    match e with
    | .write _ _ _ => none
    | .read _ _ => none
    | .delay _ => none
    | .response w => some w

/-- The targets of bus transactions, in order. -/
def targetsOf (o : Host.Outcome State Fault Refusal) : List Addr :=
  (logOf o).filterMap fun e =>
    match e with
    | .write a _ _ => some a
    | .read a _ => some a
    | .delay _ => none
    | .response _ => none

/-- The frames written (one-byte writes) and the response words. -/
def seen (o : Host.Outcome State Fault Refusal) : List Byte × List Word := ((writesOf o).flatten, responsesOf o)

/-- ADDR_VALID = 1, ADDR = RESULT_ADDR = 0x27, BL and RS as given, the transport's answers to writes as given. -/
def at27 (bl rs : Bool) (ws : List WriteAnswer) : State :=
  { State.reset with addr := 0x27, addrValid := true, resultAddr := 0x27, bl := bl, rs := rs, writeAnswers := ws }

/-- `n` writes answered with ok. -/
def oks (n : Nat) : List WriteAnswer := List.replicate n .ok

/-- The reads of `n` rejecting probes, then of an accepting one (95 V5: 0xFF elsewhere; 0xF7, 0x00). -/
def readsFoundAfter (n : Nat) : List ReadAnswer := List.replicate (2 * n) (.ok 0xFF) ++ [.ok 0xF7, .ok 0x00]

/-! ## Frame composition (95 section 2.1) -/

theorem test_frameOf :
    [frameOf false false 0x00, frameOf true false 0x00, frameOf false true 0x00, frameOf true true 0xF0,
     frameOf false false 0xFF, frameOf true true 0x0F, frameOf true false 0x3F, frameOf true true 0xA5,
     frameOf false true 0x7E] =
    [0x00, 0x08, 0x01, 0xF9, 0xF0, 0x09, 0x38, 0xA9, 0x71] := by decide

/-! ## SEND_NIBBLE, SEND_COMMAND, SEND_DATA (95 section 2.2) -/

theorem test_sendNibble_keeps_rs :
    seen (exec (.sendNibble 0x3F) (at27 true true (oks 3))) = ([0x39, 0x3D, 0x39], [0x00003A70]) := by decide

theorem test_sendCommand :
    seen (exec (.sendCommand 0x28) (at27 true true (oks 6))) =
      ([0x28, 0x2C, 0x28, 0x88, 0x8C, 0x88], [0x00001A70]) := by decide

/-- The fourth write fails: `28 2C 28 88(E)`, one delay after each write but the failing one. -/
theorem test_sendCommand_fails_at_fourth :
    logOf (exec (.sendCommand 0x28) (at27 true true (oks 3 ++ [.error, .ok]))) =
      [.write 0x27 [0x28] .ok, .delay 1, .write 0x27 [0x2C] .ok, .delay 1, .write 0x27 [0x28] .ok, .delay 1,
       .write 0x27 [0x88] .error, .response 0x00001A71] := by decide

theorem test_sendData :
    seen (exec (.sendData 0x5A) (at27 true true (oks 6))) =
      ([0x59, 0x5D, 0x59, 0xA9, 0xAD, 0xA9], [0x00003A70]) := by decide

/-! ## Display operations (95 section 2.4) -/

theorem test_displayOn :
    seen (exec .displayOn (at27 false false (oks 6))) = ([0x00, 0x04, 0x00, 0xC0, 0xC4, 0xC0], [0x00000A70]) := by decide

theorem test_displayOff :
    seen (exec .displayOff (at27 true false (oks 6))) = ([0x08, 0x0C, 0x08, 0x88, 0x8C, 0x88], [0x00001A70]) := by decide

theorem test_clear :
    seen (exec .clear (at27 true true (oks 6))) = ([0x08, 0x0C, 0x08, 0x18, 0x1C, 0x18], [0x00001A70]) := by decide

theorem test_scrollLeft :
    seen (exec .scrollLeft (at27 false false (oks 6))) = ([0x10, 0x14, 0x10, 0x80, 0x84, 0x80], [0x00000A70]) := by decide

theorem test_scrollRight :
    seen (exec .scrollRight (at27 true false (oks 6))) = ([0x18, 0x1C, 0x18, 0xC8, 0xCC, 0xC8], [0x00001A70]) := by decide

theorem test_backlightOn :
    seen (exec .backlightOn (at27 false true (oks 6))) = ([0x08, 0x0C, 0x08, 0x08, 0x0C, 0x08], [0x00001A70]) := by decide

theorem test_backlightOff :
    seen (exec .backlightOff (at27 true false (oks 6))) = ([0x00, 0x04, 0x00, 0x00, 0x04, 0x00], [0x00000A70]) := by decide

/-! ## Text and numbers -/

theorem test_cursor :
    [cursor 0 0, cursor 15 0, cursor 0 1, cursor 3 2, cursor 0 255, cursor 0x40 0, cursor 0x80 0, cursor 0x50 1,
     cursor 0xFF 0xFF] =
    [0x80, 0x8F, 0xC0, 0xC3, 0xC0, 0xC0, 0x00, 0x10, 0xBF] := by decide

theorem test_dec :
    [dec 0, dec 10, dec 42, dec 0xFFFFFFFF, dec 0x80000000] =
    [[0x30], [0x31, 0x30], [0x34, 0x32], [0x2D, 0x31],
     [0x2D, 0x32, 0x31, 0x34, 0x37, 0x34, 0x38, 0x33, 0x36, 0x34, 0x38]] := by decide

theorem test_showString :
    seen (exec (.showString 3 1 [0x48, 0x69]) (at27 true false (oks 18))) =
      ([0xC8, 0xCC, 0xC8, 0x38, 0x3C, 0x38, 0x49, 0x4D, 0x49, 0x89, 0x8D, 0x89, 0x69, 0x6D, 0x69, 0x99, 0x9D, 0x99],
       [0x00003A70]) := by decide

/-- 95 program P3, command 4: the eighth frame write of `show_number 5, 1, -7` fails. -/
theorem test_showNumber_fails_at_eighth :
    seen (exec (.showNumber 5 1 0xFFFFFFF9) (at27 true false (oks 7 ++ [.error]))) =
      ([0xC8, 0xCC, 0xC8, 0x58, 0x5C, 0x58, 0x29, 0x2D], [0x00003A71]) := by decide

/-- 42 R104's example: 42 at column 0, row 0. -/
theorem test_showNumber :
    (seen (exec (.showNumber 0 0 42) (at27 true false (oks 18)))).1 =
      [0x88, 0x8C, 0x88, 0x08, 0x0C, 0x08, 0x39, 0x3D, 0x39, 0x49, 0x4D, 0x49, 0x39, 0x3D, 0x39, 0x29, 0x2D, 0x29] := by
  decide

/-! ## RESOLVE (95 V5, V6, section 2.3) -/

theorem test_resolve_found_at_27 :
    (targetsOf (exec .resolve { State.reset with writeAnswers := oks 16, readAnswers := readsFoundAfter 7 }),
     responsesOf (exec .resolve { State.reset with writeAnswers := oks 16, readAnswers := readsFoundAfter 7 })) =
    ([0x20, 0x21, 0x22, 0x23, 0x24, 0x25, 0x26, 0x27].flatMap (List.replicate 4), [0x00000270]) := by decide

/-- Width variant 2, 1 and policy Propagate: 0x20 errors on its first read. -/
theorem test_resolve_propagate :
    logOf (exec .resolve { State.reset with
      params := { settleMs := 1, initMs := 5, probeWidths := .twoOne, resolverErr := .propagate }
      writeAnswers := oks 2, readAnswers := [.error] }) =
    [.write 0x20 [0xFF, 0xFF] .ok, .read 0x20 .error, .response 0x00000001] := by decide

/-! ## INIT (95 V7, section 2.4) -/

/-- `init 0x27` whose tenth frame write fails. -/
theorem test_init_fails_at_tenth :
    seen (exec (.init 0x27) { State.reset with writeAnswers := oks 9 ++ [.error] }) =
      ([0x38, 0x3C, 0x38, 0x38, 0x3C, 0x38, 0x38, 0x3C, 0x38, 0x28], [0x00001A71]) := by decide

set_option maxRecDepth 8000 in
/-- V7: the signature at 0x3F only. -/
theorem test_init_autodetect_at_3F :
    responsesOf (exec (.init 0) { State.reset with writeAnswers := oks 68, readAnswers := readsFoundAfter 15 }) =
      [0x00001BF0] := by decide

/-! ## Steps: the command port, statuses, waiting and reset (95 sections 2.5, 2.6, 30 R75, 60 R124, 70 R133) -/

/-- The state after a step, or the reset state. -/
def after : Host.Outcome State Fault Refusal → State
  | .next t => t
  | .fault _ => State.reset
  | .refused _ => State.reset

/-- The words on the command port of the reset machine. -/
def offered (ws : List Word) : State := { State.reset with hostWords := ws }

theorem test_step_illegal_takes_operand :
    ((after (step (offered [0x00100003, 0xAAAAAAAA, 0x0000000E]))).log,
     (after (step (offered [0x00100003, 0xAAAAAAAA, 0x0000000E]))).hostWords) =
    ([.response 0x00000004], [0x0000000E]) := by decide

theorem test_step_status_priority :
    [0x00000014, 0x00000004, 0x00000007, 0x0000000F].map (fun w => responsesOf (step (offered [w]))) =
    [[0x00000004], [0x00000003], [0x00000003], [0x00000004]] := by decide

/-- The payload word of SHOW_STRING is awaited; with it the command is executed. -/
theorem test_step_awaits_operand :
    ((after (step (offered [0x00200002]))).log,
     (after (step { after (step (offered [0x00200002])) with hostWords := [0x00006948] })).log) =
    ([], [.response 0x00000003]) := by decide

/-- INIT 0x27 waits, BUSY, for the answer to its first write, and goes on when it comes. -/
theorem test_step_waits_then_goes_on :
    (pendingRequest (after (step (offered [0x00000271]))),
     (after (step { after (step (offered [0x00000271])) with writeAnswers := [.ok] })).log,
     pendingRequest (after (step { after (step (offered [0x00000271])) with writeAnswers := [.ok] }))) =
    (some (.write 0x27 [0x38]), [.write 0x27 [0x38] .ok, .delay 1], some (.write 0x27 [0x3C])) := by decide

/-- The first delay of INIT is still running; then its seventh, the init delay right after a settle delay, and a reset
there (42 R101, 70 R133). -/
theorem test_step_in_delay :
    pendingRequest (after (step { offered [0x00000271] with writeAnswers := [.ok], delayHold := some 0 })) =
      some (.delay 1) ∧
    (let t := after (step { offered [0x00000271] with writeAnswers := oks 36, delayHold := some 6 })
     pendingRequest t = some (.delay 5) ∧ t.writeAnswers = oks 30 ∧
      (after (step { t with resetPin := true })).abandoned = [.delay 5]) := by decide

/-- Reset while BUSY: no response, the write in progress recorded as abandoned. -/
theorem test_step_reset_while_busy :
    let t := after (step { after (step (offered [0x00000271])) with resetPin := true })
    (t.addrValid, t.seq, t.log, t.abandoned) = (false, .idle, [], [.write 0x27 [0x38]]) := by decide

theorem test_step_runs_fetch_word :
    (after (step (State.reset.withFetchWord 32 0x0000000E))).seq = .busy := by decide

/-! ## Response words (95 P3; 93 U14) -/

theorem test_readResponse :
    readResponse 0x00003A71 =
      .ok { status := .transportError, resultAddr := 0x27, addrValid := true, bl := true, rs := true } := by rfl

theorem test_readResponse_reserved : readResponse 0x00000005 = .error (.reservedStatusCode 5) := by rfl

/-! ## The assembler (95 section 3: the sources and words of P1, P3, P5) -/

theorem test_assemble_init_and_comment :
    assembleSource ['i','n','i','t',' ','0','x','2','7',' ',';',' ','P','2'] = .ok [0x00000271] := by rfl

theorem test_assemble_show_number :
    assembleSource ['s','h','o','w','_','n','u','m','b','e','r',' ','5',',',' ','1',',',' ','-','7'] =
      .ok [0x00001053, 0xFFFFFFF9] := by rfl

theorem test_assemble_show_string :
    assembleSource ['s','h','o','w','_','s','t','r','i','n','g',' ','0',',',' ','0',',',' ','"','H','\\','x','6','9','"'] =
      .ok [0x00200002, 0x00006948] := by rfl

theorem test_assemble_set_cursor :
    assembleSource ['s','e','t','_','c','u','r','s','o','r',' ','2',',',' ','1'] = .ok [0x00000C2B] := by rfl

theorem test_assemble_refuses_range :
    assembleSource ['i','n','i','t',' ','1','2','8'] = .error .outOfRange := by rfl

/-! ## Witnesses: states and operands that meet the hypotheses of the statements, clause by clause -/

/-- BUSY in SEND_COMMAND, at its first write, no answer yet. -/
def busyAt27 : State := after (exec (.sendCommand 0x28) (at27 true false []))

/-- BUSY in RESOLVE, at its first read. -/
def busyReading : State := after (exec .resolve { State.reset with writeAnswers := [.ok] })

/-- A reset while BUSY, and one while an operand word is awaited. -/
theorem witness_ResetSetsTheRegisters :
    { busyAt27 with resetPin := true }.resetPin = true ∧
    (let s := { after (step (offered [0x00200002])) with resetPin := true }
     s.resetPin = true ∧ s.accepting = true) := by decide

theorem witness_StepKeepsTheInvariant :
    Inv (at27 true false [.ok]) ∧ ∃ t, step (at27 true false [.ok]) = .next t :=
  ⟨{ params := by decide, status := by decide, address := by decide, frame := by decide, busy := by decide,
     accepting := by decide, log := by decide }, ⟨_, rfl⟩⟩

theorem witness_StepRunsTheDecodedCommand :
    (AwaitsCommand (offered [0x00001053, 0xFFFFFFF9, 0x4]) ∧
      (offered [0x00001053, 0xFFFFFFF9, 0x4]).hostWords = 0x00001053 :: ([0xFFFFFFF9] ++ [0x4]) ∧
      [0xFFFFFFF9#32].length = operandWords 0x00001053 ∧
      decodeCommand 0x00001053 [0xFFFFFFF9] = .instr (.showNumber 5 1 0xFFFFFFF9)) ∧
    (let s := { after (step (offered [0x00001053])) with hostWords := [0xFFFFFFF9, 0x4] }
     s.resetPin = false ∧ s.seq = .idle ∧ s.accepting = true ∧ s.hostWords = [0xFFFFFFF9] ++ [0x4] ∧
      (s.opnd ++ [0xFFFFFFF9]).length = operandWords s.cmd ∧
      decodeCommand s.cmd (s.opnd ++ [0xFFFFFFF9]) = .instr (.showNumber 5 1 0xFFFFFFF9)) := by decide

theorem witness_FetchWordRunsItsInstr : decodeTableWord 32 0x00300002 = some (.showString 0 0 [0, 0, 0]) := by decide

theorem witness_AddedStatusesDoNothingElse :
    (needsAddr .clear = true ∧ State.reset.addrValid = false) ∧
    (AwaitsCommand (offered [0x00100003, 0x1, 0x4]) ∧
      (offered [0x00100003, 0x1, 0x4]).hostWords = 0x00100003 :: ([0x1] ++ [0x4]) ∧
      [0x1#32].length = operandWords 0x00100003 ∧ illegalByFields 0x00100003 = true) ∧
    (let s := { after (step (offered [0x00100003])) with hostWords := [0x1, 0x4] }
     s.resetPin = false ∧ s.seq = .idle ∧ s.accepting = true ∧ s.hostWords = [0x1] ++ [0x4] ∧
      (s.opnd ++ [0x1]).length = operandWords s.cmd ∧ illegalByFields s.cmd = true) := by decide

theorem witness_OperandWordsAreAwaited :
    (AwaitsCommand (offered [0x00500002, 0x1]) ∧ (offered [0x00500002, 0x1]).hostWords = 0x00500002 :: [0x1] ∧
      [0x1#32].length < operandWords 0x00500002) ∧
    (let s := after (step (offered [0x00500002, 0x1]))
     s.resetPin = false ∧ s.seq = .idle ∧ s.accepting = true ∧
      (s.opnd ++ s.hostWords).length < operandWords s.cmd) := by decide

theorem witness_IdleBridgeIssuesNothing : AwaitsCommand (offered []) ∧ (offered []).hostWords = [] := by decide

theorem witness_BusyBridgeAcceptsNothing : busyAt27.resetPin = false ∧ busyAt27.seq = .busy := by decide

theorem witness_UnansweredTransactionKeepsTheBridgeBusy :
    (busyAt27.seq = .busy ∧ pendingRequest busyAt27 = some (.write 0x27 [0x28]) ∧ busyAt27.writeAnswers = [] ∧
      busyAt27.resetPin = false ∧ { busyAt27 with resetPin := true }.resetPin = true) ∧
    (busyReading.seq = .busy ∧ pendingRequest busyReading = some (.read 0x20) ∧ busyReading.readAnswers = []) := by
  decide

theorem witness_WaitingIsTransparent :
    exec (.sendCommand 0x28) (at27 true false []) = .next busyAt27 ∧ busyAt27.seq = .busy ∧
    busyAt27.resetPin = false := ⟨rfl, by decide, by decide⟩

/-- SEND_COMMAND at a delay that is held up, its first write answered. -/
def heldAt27 : State := after (exec (.sendCommand 0x28) { at27 true false (oks 6) with delayHold := some 0 })

theorem witness_WaitingIsTransparent_held :
    exec (.sendCommand 0x28) { at27 true false (oks 6) with delayHold := some 0 } = .next heldAt27 ∧
    heldAt27.seq = .busy ∧ heldAt27.resetPin = false ∧ pendingRequest heldAt27 = some (.delay 1) :=
  ⟨rfl, by decide, by decide, by decide⟩

theorem witness_EveryDelayCanBeInProgress :
    let s := { State.reset with writeAnswers := oks 6 }
    let u := after (exec (.init 0x27) s)
    exec (.init 0x27) { s with delayHold := none } = .next u ∧ u.log = s.log ++ u.log ∧
      (u.log.filterMap PortEvent.delay?)[6]? = some 5 ∧
      (after (exec (.init 0x27) { s with delayHold := some 6 })).resetPin = false :=
  ⟨rfl, by decide, by decide, by decide⟩

theorem witness_ResetAbandonsWhatIsInProgress :
    { heldAt27 with resetPin := true }.resetPin = true ∧
    pendingRequest { heldAt27 with resetPin := true } = some (.delay 1) ∧
    pendingRequest { busyReading with resetPin := true } = some (.read 0x20) := by decide

theorem witness_DecodeOfEncodeIsTheCommand : (Instr.showString 0xFF 0xFF [1, 2, 3, 4, 5]).wf = true := by decide

theorem witness_EncodeGivesTheCommandWordBack :
    [0xFFFFFFFF#32].length = operandWords 0x00300002 ∧
    decodeCommand 0x00300002 [0xFFFFFFFF] = .instr (.showString 0 0 [0xFF, 0xFF, 0xFF]) := by decide

theorem witness_LegalWordsAreTheRowsOfTheTable :
    ([] : List Word).length = operandWords 0x00000801 ∧ [0x7#32].length = operandWords 0x00000003 := by decide

/-- For every SendsFrames statement: all writes answered; the first and the last write failing; ADDR_VALID = 0. -/
theorem witness_SendsFrames :
    ((at27 true true (oks 3)).addrValid = true ∧ Answered (at27 true true (oks 3)) 3 [] ∧
      Answered (at27 true true (oks 6 ++ [.error])) 6 [.error]) ∧
    (FailsAt (at27 true true [.error]) 0 [] ∧ FailsAt (at27 true true (oks 2 ++ [.error])) 2 [] ∧
      FailsAt (at27 true true (oks 5 ++ [.error, .ok])) 5 [.ok]) ∧
    State.reset.addrValid = false := by decide

theorem witness_ByteIsSentInSixFrames :
    (at27 false true (oks 6)).addrValid = true ∧ Answered (at27 false true (oks 6)) 6 [] := by decide

theorem witness_InitExplicit :
    (0x7F#7 ≠ 0 ∧ Answered { State.reset with writeAnswers := oks 36 } 36 []) ∧
    (0x01#7 ≠ 0 ∧ FailsAt { State.reset with writeAnswers := [.error] } 0 [] ∧
      FailsAt { State.reset with writeAnswers := oks 35 ++ [.error] } 35 []) := by decide

/-- Fifteen rejecting probes of both policies, then an accepting or erring one; sixteen rejecting ones. -/
def rejecting (n : Nat) : List ProbeRun := List.replicate n (.whole 0xFF 0x00)

/-- The default parameters with the policy `Propagate`. -/
def propagating : Params := { Params.default with resolverErr := .propagate }

theorem witness_scan_found :
    scansOn Params.default [.firstReadErrs, .whole 0x07 0x10] ∧ scansOn propagating (rejecting 15) ∧
    (rejecting 15).length < 16 ∧ (ProbeRun.whole 0x87 0x00).accepts = true := by decide

theorem witness_scan_notFound :
    scansOn Params.default (List.replicate 16 .firstWriteErrs) ∧ (rejecting 16).length = 16 ∧
    scansOn propagating (rejecting 16) := by decide

theorem witness_scan_propagates :
    scansOn propagating (rejecting 15) ∧ (rejecting 15).length < 16 ∧ propagating.resolverErr = .propagate ∧
    (ProbeRun.secondReadErrs 0x07).errs = true := by decide

/-- The answers of a scan that accepts its first candidate, then of a bring-up whole, and failing at its first and
at its last write. -/
theorem witness_InitAutodetect :
    let q := ProbeRun.whole 0x87 0x00
    let rs := ([] ++ [q]).flatMap ProbeRun.reads
    let ws := ([] ++ [q]).flatMap ProbeRun.writes
    let s (l : List WriteAnswer) : State := { State.reset with readAnswers := rs, writeAnswers := ws ++ l }
    (s (oks 36)).delayHold = none ∧ (s (oks 36)).readAnswers = rs ++ [] ∧
    (s (oks 36)).writeAnswers = ws ++ (List.replicate 36 .ok ++ []) ∧
    (s [.error]).writeAnswers = ws ++ (List.replicate 0 .ok ++ .error :: []) ∧
    (s (oks 35 ++ [.error])).writeAnswers = ws ++ (List.replicate 35 .ok ++ .error :: []) := by decide

theorem witness_BringUpCost :
    (0x7F#7 ≠ 0 ∧ State.reset.params = Params.default ∧
      Answered { State.reset with writeAnswers := oks 36 ++ [.error] } 36 [.error]) ∧
    (let q := ProbeRun.whole 0x87 0x00
     let ws := (rejecting 15 ++ [q]).flatMap ProbeRun.writes ++ (List.replicate 36 .ok ++ [])
     let rs := (rejecting 15 ++ [q]).flatMap ProbeRun.reads ++ []
     let s : State := { State.reset with writeAnswers := ws, readAnswers := rs }
     s.params = Params.default ∧ s.delayHold = none ∧ (rejecting 15).length < 16 ∧
      (∀ p ∈ rejecting 15, p.accepts = false ∧ p.errs = false) ∧ q.accepts = true ∧
      s.writeAnswers = ws ∧ s.readAnswers = rs) := by decide

/-- INIT 0 writes frames after a scan, RESOLVE probes, a text command reaches its first data byte. -/
theorem witness_ScanThenFrames :
    PortEvent.write 0x20 [0x38] .ok ∈
      logOf (exec (.init 0) { State.reset with writeAnswers := oks 3, readAnswers := readsFoundAfter 0 }) ∧
    PortEvent.read 0x20 (.ok 0xF7) ∈
      logOf (exec .resolve { State.reset with writeAnswers := oks 2, readAnswers := readsFoundAfter 0 }) ∧
    (after (exec (.showString 0 0 [0x48]) (at27 true false (oks 6)))).rs = true := by decide

theorem witness_ShowsText :
    ((at27 true false (oks 6)).addrValid = true ∧
      Answered (at27 true false (oks 6)) (6 * (1 + ([] : List Byte).length)) []) ∧
    (FailsAt (at27 true false [.error]) 0 [] ∧ FailsAt (at27 true false (oks 17 ++ [.error])) 17 [] ∧
      17 < 6 * (1 + [0x48#8, 0x69#8].length)) ∧
    State.reset.addrValid = false := by decide

theorem witness_DisplayControlSendsItsByte :
    (Instr.clear, 0x01#8) ∈ ([(.displayOn, 0x0C), (.displayOff, 0x08), (.clear, 0x01), (.scrollLeft, 0x18),
      (.scrollRight, 0x1C)] : List (Instr × Byte)) := by decide

theorem witness_PseudoInstructionsReproduceShowString :
    ((0 : Int) ≤ 0 ∧ (0 : Int) ≤ 255 ∧ (255 : Int) ≤ 255) ∧
    (at27 true false (oks 18)).addrValid = true ∧
    Answered (at27 true false (oks 18)) (6 * (1 + [0x4F#8, 0x4B#8].length)) [] := by decide

theorem witness_ResolveScansBothWindows :
    let q := ProbeRun.secondReadErrs 0x07
    let s : State := { State.reset with
      params := propagating, writeAnswers := [.ok, .ok, .error], readAnswers := [.ok 0x07, .error] }
    s.writeAnswers = ([] ++ [q]).flatMap ProbeRun.writes ++ [.error] ∧
    s.readAnswers = ([] ++ [q]).flatMap ProbeRun.reads ++ [] := by decide

theorem witness_ResolverDependsOnTheAnswersOnly :
    State.reset.params = (at27 true true []).params ∧ State.reset.writeAnswers = (at27 true true []).writeAnswers ∧
    State.reset.readAnswers = (at27 true true []).readAnswers := by decide

theorem witness_AnsweredCommandsEnd :
    let s : State := { State.reset with writeAnswers := oks 68, readAnswers := List.replicate 32 (.ok 0xFF) }
    s.delayHold = none ∧ writeBound (.init 0) ≤ s.writeAnswers.length ∧ readBound (.init 0) ≤ s.readAnswers.length := by
  decide

theorem witness_ProbePatterns : 3 < 4 := by decide

theorem witness_ResponseReadsBack :
    (at27 true true []).status = Status.ok.code ∧ 5 ≤ ((0x0000000F : Word).extractLsb' 0 4).toNat := by decide

/-- Every operand form at a bound of its field. -/
theorem witness_AssembledLinesDecode :
    assembleLine (.init 127) = .ok [0x000007F1] ∧ assembleLine (.sendData 0x41) = .ok [0x0000041C] ∧
    assembleLine (.sendCommand 255) = .ok [0x00000FFB] ∧ assembleLine (.sendNibble 0) = .ok [0x0000000D] ∧
    assembleLine (.putChar 0x4F) = .ok [0x000004FC] ∧ assembleLine (.setCursor 2 1) = .ok [0x00000C2B] ∧
    assembleLine (.showString 3 1 [0x48, 0x69]) = .ok [0x00201032, 0x00006948] ∧
    assembleLine (.showNumber 5 1 (-7)) = .ok [0x00001053, 0xFFFFFFF9] ∧
    assembleLine (.word 0xF) = .ok [0x0000000F] := ⟨rfl, rfl, rfl, rfl, rfl, rfl, rfl, rfl, rfl⟩

end Sys2Proof.Tests
end

namespace Sys2Proof.Machine

/-! # PROOFS of the family 00_scope: port events, what no command touches, delays in progress

## The record of port events and the inputs it uses up -/

/-- The delays among some port events. -/
abbrev delaysIn (es : List PortEvent) : List Nat := es.filterMap PortEvent.delay?

/-- `t` is reached from `s` by the port events `es`: they enter the record, the bus transactions among them take the next
answers, each delay brings a held one nearer (log 2), and SEQ_POS counts what is no response (10 R26). -/
structure Follows (s : State) (es : List PortEvent) (t : State) : Prop where
  log : t.log = s.log ++ es
  writes : s.writeAnswers = es.filterMap PortEvent.writeAnswer? ++ t.writeAnswers
  reads : s.readAnswers = es.filterMap PortEvent.readAnswer? ++ t.readAnswers
  hold : s.delayHold = t.delayHold.map (· + (delaysIn es).length)
  pos : t.seqPos = s.seqPos + (es.filter PortEvent.counted).length

namespace Follows

/-- No port event: the record, the inputs and SEQ_POS stay. -/
theorem nil {s t : State} (hl : t.log = s.log) (hw : t.writeAnswers = s.writeAnswers)
    (hr : t.readAnswers = s.readAnswers) (hh : t.delayHold = s.delayHold) (hp : t.seqPos = s.seqPos) :
    Follows s [] t :=
  ⟨by simp [hl], by simp [hw], by simp [hr], by simp [hh], by simp [hp]⟩

theorem refl (s : State) : Follows s [] s := nil rfl rfl rfl rfl rfl

theorem trans {s t u : State} {es fs : List PortEvent} (h : Follows s es t) (k : Follows t fs u) :
    Follows s (es ++ fs) u where
  log := by simp [k.log, h.log]
  writes := by simp [h.writes, k.writes]
  reads := by simp [h.reads, k.reads]
  hold := by simp [h.hold, k.hold, Function.comp_def, Nat.add_assoc, Nat.add_comm (es.filterMap PortEvent.delay?).length]
  pos := by simp [k.pos, h.pos, Nat.add_assoc]

theorem write {s : State} {r : WriteAnswer} {rest : List WriteAnswer} (a : Addr) (bs : List Byte)
    (h : s.writeAnswers = r :: rest) :
    Follows s [.write a bs r] (emit (.write a bs r) { s with writeAnswers := rest }) :=
  ⟨rfl, h, rfl, (refl s).hold, rfl⟩

theorem read {s : State} {r : ReadAnswer} {rest : List ReadAnswer} (a : Addr) (h : s.readAnswers = r :: rest) :
    Follows s [.read a r] (emit (.read a r) { s with readAnswers := rest }) :=
  ⟨rfl, rfl, h, (refl s).hold, rfl⟩

theorem delay {s : State} {h : Option Nat} (ms : Nat) (hh : s.delayHold = h.map (· + 1)) :
    Follows s [.delay ms] (emit (.delay ms) { s with delayHold := h }) :=
  ⟨rfl, rfl, rfl, hh, rfl⟩

theorem apply (w : RegWrite) (s : State) : Follows s [] (w.apply s) := by
  cases w <;> exact nil rfl rfl rfl rfl rfl

theorem waitAt (p : Prog) (s : State) : Follows s [] (waitAt p s) := nil rfl rfl rfl rfl rfl

/-- Completion sends its response, which SEQ_POS does not count. -/
theorem finish (st : Status) (s : State) :
    Follows s [.response (responseWord { s with status := st.code })] (finish st s) :=
  ⟨rfl, rfl, rfl, (refl s).hold, rfl⟩

/-- A hold is kept as a hold (log 2). -/
theorem hold_isSome {s t : State} {es : List PortEvent} (h : Follows s es t) :
    t.delayHold.isSome = s.delayHold.isSome := by
  simp [h.hold]

/-- As many delays as the hold lets complete bring the held one to be the next (log 2). -/
theorem hold_eq_zero {s t : State} {es : List PortEvent} (h : Follows s es t)
    (hs : s.delayHold = some (delaysIn es).length) : t.delayHold = some 0 := by
  have hh := h.hold
  rw [hs] at hh
  obtain ⟨n, ht, hn⟩ := Option.map_eq_some_iff.mp hh.symm
  rw [ht, show n = 0 by omega]

end Follows

/-! ## A probe and its port events (40 R80) -/

/-- `t` is reached from `s` by port events none of which is a delay. -/
def Transacts (s t : State) : Prop := ∃ es, Follows s es t ∧ delaysIn es = []

theorem Transacts.refl (s : State) : Transacts s s := ⟨[], .refl s, rfl⟩

theorem Transacts.trans {s t u : State} : Transacts s t → Transacts t u → Transacts s u
  | ⟨es, h, he⟩, ⟨fs, k, hf⟩ => ⟨es ++ fs, h.trans k, by simp [he, hf]⟩

/-- Writing D1 or D2 after the transactions is no port event. -/
theorem Transacts.setD {s t : State} (h : Transacts s t) (d1 : BitVec 4) (d2 : Byte) :
    Transacts s { t with d1 := d1, d2 := d2 } :=
  h.trans ⟨[], .nil rfl rfl rfl rfl rfl, rfl⟩

theorem Transacts.write {s : State} {r : WriteAnswer} {rest : List WriteAnswer} (a : Addr) (bs : List Byte)
    (h : s.writeAnswers = r :: rest) : Transacts s (emit (.write a bs r) { s with writeAnswers := rest }) :=
  ⟨_, .write a bs h, rfl⟩

theorem Transacts.read {s : State} {r : ReadAnswer} {rest : List ReadAnswer} (a : Addr)
    (h : s.readAnswers = r :: rest) : Transacts s (emit (.read a r) { s with readAnswers := rest }) :=
  ⟨_, .read a h, rfl⟩

theorem probeReadSecond_transacts (s : State) : Transacts s (probeReadSecond s).state := by
  unfold probeReadSecond
  rcases memRead_cases s.cand s with ⟨_, h⟩ | ⟨b, rest, hr, h⟩ | ⟨rest, hr, h⟩ <;> rw [h]
  · exact .refl s
  · dsimp only
    split <;> exact (Transacts.read s.cand hr).setD _ b
  · simpa only [probeError_state] using Transacts.read s.cand hr

theorem probeWriteZero_transacts (s : State) : Transacts s (probeWriteZero s).state := by
  unfold probeWriteZero
  rcases memWrite_cases s.cand (zeroProbe s.params) s with ⟨_, h⟩ | ⟨rest, hw, h⟩ | ⟨rest, hw, h⟩ <;> rw [h]
  · exact .refl s
  · exact (Transacts.write s.cand _ hw).trans (probeReadSecond_transacts _)
  · simpa only [probeError_state] using Transacts.write s.cand _ hw

theorem probeReadFirst_transacts (s : State) : Transacts s (probeReadFirst s).state := by
  unfold probeReadFirst
  rcases memRead_cases s.cand s with ⟨_, h⟩ | ⟨b, rest, hr, h⟩ | ⟨rest, hr, h⟩ <;> rw [h]
  · exact .refl s
  · exact ((Transacts.read s.cand hr).setD _ _).trans (probeWriteZero_transacts _)
  · simpa only [probeError_state] using Transacts.read s.cand hr

theorem probeWriteOnes_transacts (s : State) : Transacts s (probeWriteOnes s).state := by
  unfold probeWriteOnes
  rcases memWrite_cases s.cand (onesProbe s.params) s with ⟨_, h⟩ | ⟨rest, hw, h⟩ | ⟨rest, hw, h⟩ <;> rw [h]
  · exact .refl s
  · exact (Transacts.write s.cand _ hw).trans (probeReadFirst_transacts _)
  · simpa only [probeError_state] using Transacts.write s.cand _ hw

/-- A probe makes bus transactions only: the transport's answers are taken in order, and there is no delay (40 R80). -/
theorem probeFrom_transacts (p : ProbeStep) (s : State) : Transacts s (probeFrom p s).state := by
  cases p with
  | writeOnes => exact probeWriteOnes_transacts s
  | readFirst => exact probeReadFirst_transacts s
  | writeZero => exact probeWriteZero_transacts s
  | readSecond => exact probeReadSecond_transacts s

/-! ## A command and its port events -/

/-- Some port events lead from `s` to `t`. -/
def Reaches (s t : State) : Prop := ∃ es, Follows s es t

theorem Follows.reaches {s t : State} {es : List PortEvent} (h : Follows s es t) : Reaches s t := ⟨es, h⟩

theorem Follows.reaches_trans {s t u : State} {es : List PortEvent} (h : Follows s es t) :
    Reaches t u → Reaches s u
  | ⟨_, k⟩ => (h.trans k).reaches

theorem runProg_reaches (p : Prog) (s : State) : Reaches s (runProg p s) := by
  induction p generalizing s with
  | complete st => exact (Follows.finish st s).reaches
  | set w k ih => exact (Follows.apply w s).reaches_trans (ih _)
  | compose p k ih =>
    exact Follows.reaches_trans (t := { s with frame := frameOf s.bl s.rs p }) (.nil rfl rfl rfl rfl rfl) (ih _)
  | frameWrite en k ih =>
    rw [runProg]
    rcases memWrite_cases s.addr [strobeByte en s.frame] s with ⟨_, h⟩ | ⟨rest, hw, h⟩ | ⟨rest, hw, h⟩ <;> rw [h]
    · exact (Follows.waitAt _ s).reaches
    · exact (Follows.write _ _ hw).reaches_trans (ih _)
    · exact (Follows.write _ _ hw).reaches_trans (Follows.finish _ _).reaches
  | sleep d k ih =>
    rw [runProg]
    rcases sleepFor_cases (delayMs s.params d) s with ⟨_, h⟩ | ⟨h', hh, h⟩ <;> rw [h]
    · exact (Follows.waitAt _ s).reaches
    · exact (Follows.delay _ hh).reaches_trans (ih _)
  | probe at_ acc rej iha ihr =>
    rw [runProg]
    obtain ⟨es, hp, -⟩ := probeFrom_transacts at_ s
    generalize probeFrom at_ s = r at hp ⊢
    cases r with
    | accept s1 => exact hp.reaches_trans (iha _)
    | reject s1 => exact hp.reaches_trans (ihr _)
    | raised s1 => exact hp.reaches_trans (Follows.finish _ _).reaches
    | wait p1 s1 => exact hp.reaches_trans (Follows.waitAt _ s1).reaches

/-- Executing a command, turned away or not, answers a state that its port events lead to, and leaves alone what lies
outside it. -/
theorem exec_reaches (i : Instr) (s : State) : ∃ t, exec i s = .next t ∧ Reaches s t ∧ SameOutside s t := by
  refine ⟨_, exec_eq i s, ?_⟩
  split
  · exact ⟨(Follows.finish _ s).reaches, rfl, rfl, rfl, rfl, rfl, rfl, rfl⟩
  · exact ⟨runProg_reaches _ s, runProg_sameOutside _ s⟩

/-- Settles O38: the port events a command makes are followed one by one (`runProg_reaches`). -/
theorem portEventsFollowTheAnswers : Obligations.PortEventsFollowTheAnswers := by
  intro i s
  obtain ⟨t, he, ⟨es, h⟩, -⟩ := exec_reaches i s
  exact ⟨t, es, he, h.log, h.writes, h.reads, h.hold, h.pos⟩

/-- Settles O44: what no micro-program writes (`SameOutside`), and a hold that only comes nearer (`Follows.hold`). -/
theorem commandsLeaveTheLatchAndThePortsAlone : Obligations.CommandsLeaveTheLatchAndThePortsAlone := by
  intro i s
  obtain ⟨t, he, ⟨es, h⟩, o⟩ := exec_reaches i s
  exact ⟨t, he, o.cmd, o.opnd, o.hostWords, o.accepting, o.params, h.hold_isSome, o.resetPin, o.abandoned⟩

/-! ## The hold on a delay: bus transactions do not depend on it -/

/-- The state with the given hold on the delays to come (log 2). -/
def withHold (h : Option Nat) (s : State) : State := { s with delayHold := h }

section
variable (h : Option Nat) (s : State)

@[simp] theorem withHold_addr : (withHold h s).addr = s.addr := rfl
@[simp] theorem withHold_addrValid : (withHold h s).addrValid = s.addrValid := rfl
@[simp] theorem withHold_frame : (withHold h s).frame = s.frame := rfl
@[simp] theorem withHold_cand : (withHold h s).cand = s.cand := rfl
@[simp] theorem withHold_params : (withHold h s).params = s.params := rfl

end

/-- The same result of a bus transaction, with the given hold. -/
def BusResult.withHold {α : Type} (h : Option Nat) : BusResult α → BusResult α
  | .ok v s => .ok v (Machine.withHold h s)
  | .error s => .error (Machine.withHold h s)
  | .wait => .wait

/-- The same result of a probe, with the given hold. -/
def ProbeResult.withHold (h : Option Nat) : ProbeResult → ProbeResult
  | .accept s => .accept (Machine.withHold h s)
  | .reject s => .reject (Machine.withHold h s)
  | .raised s => .raised (Machine.withHold h s)
  | .wait p s => .wait p (Machine.withHold h s)

section
variable (h : Option Nat) (s : State)

theorem apply_withHold (w : RegWrite) : w.apply (withHold h s) = withHold h (w.apply s) := by
  cases w <;> rfl

theorem memWrite_withHold (a : Addr) (bs : List Byte) :
    memWrite a bs (withHold h s) = (memWrite a bs s).withHold h := by
  rcases memWrite_cases a bs s with ⟨hw, e⟩ | ⟨rest, hw, e⟩ | ⟨rest, hw, e⟩ <;> rw [e]
  · exact memWrite_wait a bs _ hw
  · exact memWrite_ok a bs _ rest hw
  · exact memWrite_error a bs _ rest hw

theorem memRead_withHold (a : Addr) : memRead a (withHold h s) = (memRead a s).withHold h := by
  rcases memRead_cases a s with ⟨hr, e⟩ | ⟨b, rest, hr, e⟩ | ⟨rest, hr, e⟩ <;> rw [e]
  · exact memRead_wait a _ hr
  · exact memRead_ok a _ b rest hr
  · exact memRead_error a _ rest hr

theorem probeError_withHold : probeError (withHold h s) = (probeError s).withHold h := by
  unfold probeError
  rw [withHold_params]
  cases s.params.resolverErr <;> rfl

theorem probeReadSecond_withHold : probeReadSecond (withHold h s) = (probeReadSecond s).withHold h := by
  unfold probeReadSecond
  rw [withHold_cand, memRead_withHold]
  cases memRead s.cand s with
  | ok b t =>
    exact (apply_ite (ProbeResult.withHold h) (signature t.d1 b = true)
      (.accept { t with d2 := b }) (.reject { t with d2 := b })).symm
  | error t => exact probeError_withHold h t
  | wait => rfl

theorem probeWriteZero_withHold : probeWriteZero (withHold h s) = (probeWriteZero s).withHold h := by
  unfold probeWriteZero
  rw [withHold_cand, withHold_params, memWrite_withHold]
  cases memWrite s.cand (zeroProbe s.params) s with
  | ok _ t => exact probeReadSecond_withHold h t
  | error t => exact probeError_withHold h t
  | wait => rfl

theorem probeReadFirst_withHold : probeReadFirst (withHold h s) = (probeReadFirst s).withHold h := by
  unfold probeReadFirst
  rw [withHold_cand, memRead_withHold]
  cases memRead s.cand s with
  | ok b t => exact probeWriteZero_withHold h { t with d1 := b.extractLsb' 0 4 }
  | error t => exact probeError_withHold h t
  | wait => rfl

theorem probeWriteOnes_withHold : probeWriteOnes (withHold h s) = (probeWriteOnes s).withHold h := by
  unfold probeWriteOnes
  rw [withHold_cand, withHold_params, memWrite_withHold]
  cases memWrite s.cand (onesProbe s.params) s with
  | ok _ t => exact probeReadFirst_withHold h t
  | error t => exact probeError_withHold h t
  | wait => rfl

theorem probeFrom_withHold (p : ProbeStep) : probeFrom p (withHold h s) = (probeFrom p s).withHold h := by
  cases p with
  | writeOnes => exact probeWriteOnes_withHold h s
  | readFirst => exact probeReadFirst_withHold h s
  | writeZero => exact probeWriteZero_withHold h s
  | readSecond => exact probeReadSecond_withHold h s

end

/-! ## The run with a delay held up stops in that delay -/

/-- Of the outcomes `u h` of a run under each hold `h`, from the record `log` on: the run adds some events when no delay is
held up, and with delay number `k` of them held up it stops in that delay, after a beginning of the same events. -/
def HoldsAnyDelay (log : List PortEvent) (u : Option Nat → State) : Prop :=
  ∃ es, (u none).log = log ++ es ∧ ∀ k ms, (delaysIn es)[k]? = some ms →
    ∃ fs, (u (some k)).log = log ++ fs ∧ pendingRequest (u (some k)) = some (.delay ms) ∧ fs.IsPrefix es ∧
      delaysIn fs = (delaysIn es).take k

namespace HoldsAnyDelay

variable {log es : List PortEvent} {u : Option Nat → State}

theorem of_no_delay (h : (u none).log = log ++ es) (he : delaysIn es = []) : HoldsAnyDelay log u :=
  ⟨es, h, fun k ms hk => by simp [he] at hk⟩

theorem finish (st : Status) (s : State) : HoldsAnyDelay s.log fun h => finish st (withHold h s) :=
  .of_no_delay (es := [_]) rfl rfl

theorem waitAt (p : Prog) (s : State) : HoldsAnyDelay s.log fun h => waitAt p (withHold h s) :=
  .of_no_delay (List.append_nil _).symm rfl

/-- Events without a delay before the run do not change which delay is held up. -/
theorem prepend (he : delaysIn es = []) : HoldsAnyDelay (log ++ es) u → HoldsAnyDelay log u
  | ⟨fs, hfs, hold⟩ => by
    have hd (gs : List PortEvent) : delaysIn (es ++ gs) = delaysIn gs := by
      rw [delaysIn, List.filterMap_append, show es.filterMap PortEvent.delay? = [] from he, List.nil_append]
    refine ⟨es ++ fs, by simp [hfs], fun k ms hk => ?_⟩
    obtain ⟨gs, hl, hp, hpre, ht⟩ := hold k ms (hd fs ▸ hk)
    exact ⟨es ++ gs, by simp [hl], hp, (List.prefix_append_right_inj es).mpr hpre, by rw [hd, hd, ht]⟩

/-- A delay before the run is number 0: held up, the run stops in it; else the rest runs with the hold one nearer. -/
theorem delay {v : Option Nat → State} {ms : Nat} (hu : HoldsAnyDelay (log ++ [.delay ms]) u)
    (hstop : (v (some 0)).log = log ∧ pendingRequest (v (some 0)) = some (.delay ms))
    (hgo : ∀ h, v (h.map (· + 1)) = u h) : HoldsAnyDelay log v := by
  obtain ⟨es, hes, hold⟩ := hu
  refine ⟨.delay ms :: es, by simpa [hes] using congrArg State.log (hgo none), fun k ms' hk => ?_⟩
  cases k with
  | zero =>
    obtain rfl : ms = ms' := by simpa [delaysIn, PortEvent.delay?] using hk
    exact ⟨[], by simp [hstop.1], hstop.2, List.nil_prefix, by simp⟩
  | succ k =>
    obtain ⟨fs, hl, hp, hpre, ht⟩ := hold k ms' hk
    have hv : v (some (k + 1)) = u (some k) := hgo (some k)
    exact ⟨.delay ms :: fs, by simp [hv, hl], by rw [hv, hp], List.cons_prefix_cons.mpr ⟨rfl, hpre⟩,
      congrArg (ms :: ·) ht⟩

end HoldsAnyDelay

theorem runProg_holdsAnyDelay (p : Prog) (s : State) : HoldsAnyDelay s.log fun h => runProg p (withHold h s) := by
  induction p generalizing s with
  | complete st => exact .finish st s
  | set w k ih =>
    simp only [runProg_set, apply_withHold]
    have hl : (w.apply s).log = s.log := by simpa using (Follows.apply w s).log
    exact hl ▸ ih (w.apply s)
  | compose p k ih => exact ih { s with frame := frameOf s.bl s.rs p }
  | frameWrite en k ih =>
    simp only [runProg, memWrite_withHold, withHold_addr, withHold_frame]
    rcases memWrite_cases s.addr [strobeByte en s.frame] s with ⟨_, h⟩ | ⟨rest, hw, h⟩ | ⟨rest, hw, h⟩ <;> rw [h]
    · exact .waitAt _ s
    · exact .prepend (es := [.write _ _ _]) rfl (ih (emit _ { s with writeAnswers := rest }))
    · exact .prepend (es := [.write _ _ _]) rfl (.finish _ (emit _ { s with writeAnswers := rest }))
  | sleep d k ih =>
    refine (ih (emit (.delay (delayMs s.params d)) s)).delay ⟨rfl, rfl⟩ fun h => ?_
    cases h with
    | none => rfl
    | some n => rfl
  | probe at_ acc rej iha ihr =>
    simp only [runProg, probeFrom_withHold]
    obtain ⟨es, hp, he⟩ := probeFrom_transacts at_ s
    generalize probeFrom at_ s = r at hp ⊢
    cases r with
    | accept s1 => exact .prepend he (hp.log ▸ iha s1)
    | reject s1 => exact .prepend he (hp.log ▸ ihr s1)
    | raised s1 => exact .prepend he (hp.log ▸ .finish .transportError s1)
    | wait p1 s1 => exact .of_no_delay hp.log he

theorem exec_holdsAnyDelay (i : Instr) (s : State) :
    ∃ u, (∀ h, exec i (withHold h s) = .next (u h)) ∧ HoldsAnyDelay s.log u := by
  by_cases hn : needsAddr i = true ∧ s.addrValid = false
  · exact ⟨_, fun h => by rw [exec_eq, withHold_addrValid, if_pos hn], .finish .notInitialized s⟩
  · exact ⟨_, fun h => by rw [exec_eq, withHold_addrValid, if_neg hn], runProg_holdsAnyDelay (progOf i) s⟩

/-- A bridge that waits in a delay has that delay as the next statement of its micro-program. -/
theorem prog_of_pendingDelay {t : State} {ms : Nat} (h : pendingRequest t = some (.delay ms)) :
    t.seq = .busy ∧ ∃ d k, t.prog = .sleep d k := by
  cases hs : t.seq with
  | idle => simp [pendingRequest, hs] at h
  | busy =>
    have hr : requestOf t t.prog = some (.delay ms) := by simpa [pendingRequest, hs] using h
    cases hp : t.prog with
    | sleep d k => exact ⟨rfl, d, k, rfl⟩
    | probe p _ _ => cases p <;> simp [hp, requestOf] at hr
    | complete _ | set _ _ | compose _ _ | frameWrite _ _ => simp [hp, requestOf] at hr

/-- While the delay in progress is held up, a step leaves the state as it is (log 2). -/
theorem step_of_held_delay {t : State} {ms : Nat} (h : pendingRequest t = some (.delay ms))
    (hh : t.delayHold = some 0) (hr : t.resetPin = false) : step t = .next t := by
  obtain ⟨hs, d, k, hp⟩ := prog_of_pendingDelay h
  have hw : runProg t.prog t = t := by
    rw [hp, runProg_sleep_held d k t hh, waitAt, ← hs, ← hp]
  simp [step, hr, hs, resume, hw]

/-- Settles O49: the run with the delay held up stops in it (`exec_holdsAnyDelay`), and by then as many delays are done as
the hold lets complete (`Follows.hold_eq_zero`), so that steps leave it there. -/
theorem everyDelayCanBeInProgress : Obligations.EveryDelayCanBeInProgress := by
  intro i s u es k ms hu hes hk
  obtain ⟨v, hv, es', hes', hold⟩ := exec_holdsAnyDelay i s
  obtain rfl : v none = u := Host.Outcome.next.inj ((hv none).symm.trans hu)
  obtain rfl : es' = es := List.append_cancel_left (hes'.symm.trans hes)
  obtain ⟨fs, hl, hp, hpre, ht⟩ := hold k ms hk
  obtain ⟨t, he, ⟨gs, hf⟩, -⟩ := exec_reaches i (withHold (some k) s)
  obtain rfl : v (some k) = t := Host.Outcome.next.inj ((hv (some k)).symm.trans he)
  obtain rfl : gs = fs := List.append_cancel_left (hf.log.symm.trans hl)
  have hlen : (delaysIn gs).length = k := by
    rw [ht, List.length_take_of_le (List.getElem?_eq_some_iff.mp hk).1.le]
  have hh : (v (some k)).delayHold = some 0 := hf.hold_eq_zero (by rw [hlen]; rfl)
  exact ⟨v (some k), gs, he, (prog_of_pendingDelay hp).1, hp, step_of_held_delay hp hh, hl, hpre, ht⟩

end Sys2Proof.Machine

namespace Sys2Proof.Machine

/-! # PROOFS of the family 10_state: the invariant, waiting, the end of a command, who writes BL, RS and ADDR

## The response word (30 R60) and the bits of a frame (30 R67, R68) -/

section
variable (s : State)

theorem responseWord_status : (responseWord s).extractLsb' 0 4 = s.status := by
  apply BitVec.eq_of_getLsbD_eq; intro i hi
  simp only [responseWord, BitVec.getLsbD_extractLsb', BitVec.getLsbD_append]
  simp [hi]

theorem responseWord_resultAddr : (responseWord s).extractLsb' 4 7 = s.resultAddr := by
  apply BitVec.eq_of_getLsbD_eq; intro i hi
  simp only [responseWord, BitVec.getLsbD_extractLsb', BitVec.getLsbD_append]
  simp [hi]

theorem responseWord_addrValid : (responseWord s).getLsbD 11 = s.addrValid := by
  simp only [responseWord, BitVec.getLsbD_append]; simp

theorem responseWord_bl : (responseWord s).getLsbD 12 = s.bl := by
  simp only [responseWord, BitVec.getLsbD_append]; simp

theorem responseWord_rs : (responseWord s).getLsbD 13 = s.rs := by
  simp only [responseWord, BitVec.getLsbD_append]; simp

/-- Bits 31:14 of a response word are zero (R60). -/
theorem responseWord_lt : (responseWord s).toNat < 2 ^ 14 := by
  refine Nat.lt_pow_two_of_testBit _ fun i hi => ?_
  rw [BitVec.testBit_toNat]
  simp only [responseWord, BitVec.getLsbD_append, BitVec.getLsbD_zero, Nat.sub_sub]
  rw [if_neg, if_neg, if_neg, if_neg, if_neg] <;> omega

/-- The low four bits of a response word are STATUS (R60). -/
theorem responseWord_mod : (responseWord s).toNat % 16 = s.status.toNat := by
  rw [← responseWord_status, BitVec.extractLsb'_toNat]; rfl

end

theorem statusOfCode_code (st : Status) : statusOfCode st.code = some st := by cases st <;> rfl

theorem statusOfCode_reserved {c : BitVec 4} (h : 5 ≤ c.toNat) : statusOfCode c = none := by
  obtain ⟨n, hn⟩ := Nat.exists_eq_add_of_le' h
  simp only [statusOfCode, hn]

theorem code_le (st : Status) : st.code.toNat ≤ 4 := by cases st <;> decide

/-- Bits 2 and 1 of a frame are clear (R68). -/
abbrev FrameClear (f : Byte) : Prop := f &&& 0x06#8 = 0

theorem frameOf_clear (bl rs : Bool) (p : Byte) : FrameClear (frameOf bl rs p) := by
  cases bl <;> cases rs <;> simp [FrameClear, frameOf, blBit, rsBit, BitVec.and_or_distrib_right, BitVec.and_assoc]

theorem frameOf_bl (bl rs : Bool) (p : Byte) : (frameOf bl rs p).getLsbD 3 = bl := by
  cases bl <;> cases rs <;> simp [frameOf, blBit, rsBit]

theorem frameOf_rs (bl rs : Bool) (p : Byte) : (frameOf bl rs p).getLsbD 0 = rs := by
  cases bl <;> cases rs <;> simp [frameOf, blBit, rsBit]

/-- Adding the enable bit changes bit 2 only, for bit 2 of FRAME is clear (41 R92). -/
theorem strobeByte_getLsbD {f : Byte} (hf : FrameClear f) (en : Bool) {i : Nat} (hi : i ≠ 2) :
    (strobeByte en f).getLsbD i = f.getLsbD i := by
  cases en with
  | false => rfl
  | true =>
    have hand : f &&& enBit = 0#8 := by
      simpa [BitVec.and_assoc, enBit] using congrArg (· &&& enBit) hf
    have hbit : enBit.getLsbD i = false := by
      rw [show enBit = BitVec.twoPow 8 2 from rfl, BitVec.getLsbD_twoPow]
      simp [hi.symm]
    simp [strobeByte, BitVec.add_eq_or_of_and_eq_zero _ _ hand, hbit]

theorem FrameClear.getLsbD_one {f : Byte} (hf : FrameClear f) : f.getLsbD 1 = false := by
  simpa using congrArg (·.getLsbD 1) hf

/-- Settles O45, field by field of the response word. -/
theorem responseReadsBack : Obligations.ResponseReadsBack := by
  refine ⟨fun s st hs => ?_, fun w hw => ?_⟩
  · simp only [readResponse, responseWord_status, hs, statusOfCode_code, responseWord_resultAddr,
      responseWord_addrValid, responseWord_bl, responseWord_rs]
  · simp [readResponse, statusOfCode_reserved hw]

/-! ## The events of a probe (40 R80, R85) -/

/-- A bus transaction of the probe of `a`. -/
def ProbeEvent (p : Params) (a : Addr) (e : PortEvent) : Prop :=
  (∃ r, e = .write a (onesProbe p) r) ∨ (∃ r, e = .write a (zeroProbe p) r) ∨ ∃ r, e = .read a r

/-- What a probe of which `w` writes and `r` reads are left comes to: it makes probe transactions of CAND, at most so
many; it accepts only after a readback; where it waits, an answer is missing before all of them are made. -/
def Probed (w r : Nat) (s : State) (res : ProbeResult) : Prop :=
  ∃ es, Follows s es res.state ∧ (∀ e ∈ es, ProbeEvent s.params s.cand e) ∧
    (es.filterMap PortEvent.writeAnswer?).length ≤ w ∧ (es.filterMap PortEvent.readAnswer?).length ≤ r ∧
    (∀ t, res = .accept t → ∃ b, es.getLast? = some (.read s.cand (.ok b))) ∧
    ∀ q t, res = .wait q t →
      t.writeAnswers = [] ∧ (es.filterMap PortEvent.writeAnswer?).length < w ∨
      t.readAnswers = [] ∧ (es.filterMap PortEvent.readAnswer?).length < r

theorem probeError_cases (s : State) : probeError s = .reject s ∨ probeError s = .raised s := by
  unfold probeError
  cases s.params.resolverErr with
  | rejectCandidate => exact .inl rfl
  | propagate => exact .inr rfl

/-- Writing D1 or D2 is no port event. -/
theorem Follows.setD {s t : State} {es : List PortEvent} (h : Follows s es t) (d1 : BitVec 4) (d2 : Byte) :
    Follows s es { t with d1 := d1, d2 := d2 } :=
  ⟨h.log, h.writes, h.reads, h.hold, h.pos⟩

namespace Probed

variable {w r : Nat} {s t : State} {res : ProbeResult}

theorem waitsToWrite (q : ProbeStep) (h : s.writeAnswers = []) : Probed (w + 1) r s (.wait q s) :=
  ⟨[], .refl s, by simp, by simp, by simp, by simp, by rintro _ _ ⟨⟩; simp [h]⟩

theorem waitsToRead (q : ProbeStep) (h : s.readAnswers = []) : Probed w (r + 1) s (.wait q s) :=
  ⟨[], .refl s, by simp, by simp, by simp, by simp, by rintro _ _ ⟨⟩; simp [h]⟩

/-- An error ends the probe (R85). -/
theorem error {e : PortEvent} (hf : Follows s [e] t) (he : ProbeEvent s.params s.cand e)
    (hw : ([e].filterMap PortEvent.writeAnswer?).length ≤ w) (hr : ([e].filterMap PortEvent.readAnswer?).length ≤ r) :
    Probed w r s (probeError t) := by
  refine ⟨[e], by rwa [probeError_state], by simpa using he, hw, hr, ?_, ?_⟩ <;>
    rcases probeError_cases t with h | h <;> simp [h]

/-- The readback that the verdict follows (R82). -/
theorem verdict {b : Byte} (hf : Follows s [.read s.cand (.ok b)] t) (ok : Bool) :
    Probed w (r + 1) s (if ok then .accept t else .reject t) := by
  refine ⟨[_], by cases ok <;> exact hf, ?_, ?_, ?_, ?_, ?_⟩
  · simp [ProbeEvent]
  · exact Nat.zero_le _
  · exact Nat.le_add_left 1 r
  · exact fun _ _ => ⟨b, rfl⟩
  · cases ok <;> simp

/-- An answered transaction, and the rest of the probe after it. -/
theorem after {e : PortEvent} {w' r' : Nat} (hf : Follows s [e] t) (he : ProbeEvent s.params s.cand e)
    (hp : t.params = s.params) (hc : t.cand = s.cand)
    (hw : ([e].filterMap PortEvent.writeAnswer?).length + w' = w)
    (hr : ([e].filterMap PortEvent.readAnswer?).length + r' = r) :
    Probed w' r' t res → Probed w r s res
  | ⟨es, hes, hev, hws, hrs, hacc, hwait⟩ => by
    rw [hp, hc] at hev
    refine ⟨e :: es, hf.trans hes, ?_, ?_, ?_, fun u hu => ?_, fun q u hu => ?_⟩
    · simpa using ⟨he, hev⟩
    · rw [← List.singleton_append, List.filterMap_append, List.length_append]; omega
    · rw [← List.singleton_append, List.filterMap_append, List.length_append]; omega
    · obtain ⟨b, hb⟩ := hacc u hu
      exact ⟨b, by simp [List.getLast?_cons, hb, hc]⟩
    · rw [← List.singleton_append, List.filterMap_append, List.filterMap_append, List.length_append,
        List.length_append]
      exact (hwait q u hu).imp (fun h => ⟨h.1, by omega⟩) (fun h => ⟨h.1, by omega⟩)

end Probed

theorem probeReadSecond_probed (s : State) : Probed 0 1 s (probeReadSecond s) := by
  unfold probeReadSecond
  rcases memRead_cases s.cand s with ⟨hr, h⟩ | ⟨b, rest, hr, h⟩ | ⟨rest, hr, h⟩ <;> rw [h]
  · exact .waitsToRead _ hr
  · exact .verdict ((Follows.read s.cand hr).setD s.d1 b) _
  · exact .error (.read s.cand hr) (.inr (.inr ⟨_, rfl⟩)) (by rfl) (by rfl)

theorem probeWriteZero_probed (s : State) : Probed 1 1 s (probeWriteZero s) := by
  unfold probeWriteZero
  rcases memWrite_cases s.cand (zeroProbe s.params) s with ⟨hw, h⟩ | ⟨rest, hw, h⟩ | ⟨rest, hw, h⟩ <;> rw [h]
  · exact .waitsToWrite _ hw
  · exact .after (.write s.cand _ hw) (.inr (.inl ⟨_, rfl⟩)) rfl rfl rfl rfl (probeReadSecond_probed _)
  · exact .error (.write s.cand _ hw) (.inr (.inl ⟨_, rfl⟩)) le_rfl (Nat.zero_le _)

theorem probeReadFirst_probed (s : State) : Probed 1 2 s (probeReadFirst s) := by
  unfold probeReadFirst
  rcases memRead_cases s.cand s with ⟨hr, h⟩ | ⟨b, rest, hr, h⟩ | ⟨rest, hr, h⟩ <;> rw [h]
  · exact .waitsToRead _ hr
  · exact .after ((Follows.read s.cand hr).setD (b.extractLsb' 0 4) s.d2) (.inr (.inr ⟨_, rfl⟩)) rfl rfl rfl rfl
      (probeWriteZero_probed _)
  · exact .error (.read s.cand hr) (.inr (.inr ⟨_, rfl⟩)) (Nat.zero_le _) (Nat.le_succ 1)

theorem probeWriteOnes_probed (s : State) : Probed 2 2 s (probeWriteOnes s) := by
  unfold probeWriteOnes
  rcases memWrite_cases s.cand (onesProbe s.params) s with ⟨hw, h⟩ | ⟨rest, hw, h⟩ | ⟨rest, hw, h⟩ <;> rw [h]
  · exact .waitsToWrite _ hw
  · exact .after (.write s.cand _ hw) (.inl ⟨_, rfl⟩) rfl rfl rfl rfl (probeReadFirst_probed _)
  · exact .error (.write s.cand _ hw) (.inl ⟨_, rfl⟩) (Nat.le_succ 1) (Nat.zero_le _)

theorem Probed.mono {w r : Nat} {s : State} {res : ProbeResult} (hw : w ≤ 2) (hr : r ≤ 2) :
    Probed w r s res → Probed 2 2 s res
  | ⟨es, hes, hev, hws, hrs, hacc, hwait⟩ =>
    ⟨es, hes, hev, hws.trans hw, hrs.trans hr, hacc, fun q u hu =>
      (hwait q u hu).imp (fun h => ⟨h.1, h.2.trans_le hw⟩) (fun h => ⟨h.1, h.2.trans_le hr⟩)⟩

/-- A probe makes at most two writes and two reads, whichever of its transactions it is at (40 R80). -/
theorem probeFrom_probed (p : ProbeStep) (s : State) : Probed 2 2 s (probeFrom p s) := by
  cases p with
  | writeOnes => exact probeWriteOnes_probed s
  | readFirst => exact (probeReadFirst_probed s).mono (by decide) (by decide)
  | writeZero => exact (probeWriteZero_probed s).mono (by decide) (by decide)
  | readSecond => exact (probeReadSecond_probed s).mono (by decide) (by decide)

/-! ## The invariant -/

/-- The invariant's clauses on a bridge that runs a command, at any point of its micro-program. -/
structure Running (s : State) : Prop where
  params : s.params.wf = true
  status : s.status.toNat ≤ 4
  address : s.addrValid = true → s.addr ≠ 0
  frame : FrameClear s.frame
  accepting : s.accepting = false
  log : ∀ e ∈ s.log, eventOk s.params e = true

theorem Running.inv_of_idle {s : State} (h : Running s) (hs : s.seq = .idle) : Inv s :=
  ⟨h.params, h.status, h.address, h.frame, by simp [hs], by simp [h.accepting], h.log⟩

theorem eventOk_response (p : Params) {s : State} (h : s.status.toNat ≤ 4) :
    eventOk p (.response (responseWord s)) = true := by
  simp only [eventOk, responseWord_mod, responseWord_lt, h, decide_true, Bool.and_true]

theorem eventOk_frameWrite (p : Params) (a : Addr) (en : Bool) (r : WriteAnswer) {f : Byte} (hf : FrameClear f) :
    eventOk p (.write a [strobeByte en f] r) = true := by
  change (!(strobeByte en f).getLsbD 1) = true
  rw [strobeByte_getLsbD hf en (by decide), hf.getLsbD_one, Bool.not_false]

theorem eventOk_delay (p : Params) (d : Delay) : eventOk p (.delay (delayMs p d)) = true := by
  cases d <;> simp [eventOk, delayMs]

theorem eventOk_probe {p : Params} {a : Addr} {e : PortEvent} (h : ProbeEvent p a e)
    (ha : candidates.contains a = true) : eventOk p e = true := by
  rcases h with ⟨r, rfl⟩ | ⟨r, rfl⟩ | ⟨r, rfl⟩
  · cases hp : p.probeWidths <;> simpa [eventOk, onesProbe, hp, ProbeWidths.first, leBytes] using ha
  · cases hp : p.probeWidths <;> simp [eventOk, zeroProbe, hp, ProbeWidths.second, leBytes]
    simpa using ha
  · exact ha

namespace Running

variable {s t : State}

theorem finish (h : Running s) (st : Status) : Inv (finish st s) :=
  inv_of_idle (s := Machine.finish st s)
    ⟨h.params, code_le st, h.address, h.frame, h.accepting, by
      simpa [or_imp, forall_and] using ⟨h.log, eventOk_response s.params (code_le st)⟩⟩ rfl

/-- A port event that the bridge may issue keeps the clauses. -/
theorem emit (h : Running s) {e : PortEvent} (he : eventOk s.params e = true) : Running (emit e s) :=
  ⟨h.params, h.status, h.address, h.frame, h.accepting, by simpa [or_imp, forall_and] using ⟨h.log, he⟩⟩

theorem waitAt (h : Running s) (p : Prog) (hp : (requestOf s p).isSome = true) (hg : p.guarded (known s) = true) :
    Inv (waitAt p s) :=
  ⟨h.params, h.status, h.address, h.frame, fun _ => ⟨hp, hg⟩, by simp [h.accepting], h.log⟩

/-- A probe keeps the clauses, and what its micro-program may rely on. -/
theorem probe (h : Running s) (hc : candidates.contains s.cand = true) (p : ProbeStep) :
    Running (probeFrom p s).state ∧ known (probeFrom p s).state = known s := by
  obtain ⟨es, hes, hev, -⟩ := probeFrom_probed p s
  have hb := probeFrom_besideProbe p s
  generalize (probeFrom p s).state = t at hes hb ⊢
  simp only [besideProbe, State.mk.injEq] at hb
  obtain ⟨haddr, hvalid, -, -, hstatus, -, -, -, -, -, hframe, hcand, -, -, -, -, hacc, hparams, -⟩ := hb
  refine ⟨⟨hparams ▸ h.params, hstatus ▸ h.status, haddr ▸ hvalid ▸ h.address, hframe ▸ h.frame,
    hacc ▸ h.accepting, ?_⟩, by rw [known, known, haddr, hvalid, hcand]⟩
  rw [hes.log, hparams]
  intro e he
  exact (List.mem_append.mp he).elim (h.log e) fun he => eventOk_probe (hev e he) hc

end Running

/-- Running a micro-program that keeps the rules leads to a state with the invariant, whatever the transport answers. -/
theorem runProg_inv (p : Prog) (s : State) (h : Running s) (hg : p.guarded (known s) = true) : Inv (runProg p s) := by
  induction p generalizing s with
  | complete st => exact h.finish st
  | set w k ih =>
    cases w with
    | addr a =>
      obtain ⟨ha, hk⟩ := Bool.and_eq_true_iff.mp hg
      refine ih _ ⟨h.params, h.status, fun _ => of_decide_eq_true ha, h.frame, h.accepting, h.log⟩ ?_
      rwa [show known ((RegWrite.addr a).apply s) = { known s with nonzero := true } from congrArg (Known.mk _ · _) ha]
    | addrValid v =>
      obtain ⟨hv, hk⟩ := Bool.and_eq_true_iff.mp hg
      refine ih _ ⟨h.params, h.status, fun hv' => ?_, h.frame, h.accepting, h.log⟩ hk
      obtain rfl : v = true := hv'
      exact of_decide_eq_true hv
    | cand a =>
      obtain ⟨ha, hk⟩ := Bool.and_eq_true_iff.mp hg
      refine ih _ ⟨h.params, h.status, h.address, h.frame, h.accepting, h.log⟩ ?_
      rwa [show known ((RegWrite.cand a).apply s) = { known s with candidate := true } from congrArg (Known.mk _ _) ha]
    | bl v | rs v | resultAddr a | win w =>
      exact ih _ ⟨h.params, h.status, h.address, h.frame, h.accepting, h.log⟩ hg
  | compose p k ih =>
    exact ih _ ⟨h.params, h.status, h.address, frameOf_clear s.bl s.rs p, h.accepting, h.log⟩ hg
  | frameWrite en k ih =>
    have hev (r : WriteAnswer) := eventOk_frameWrite s.params s.addr en r h.frame
    have hk : k.guarded (known s) = true := (Bool.and_eq_true_iff.mp hg).2
    have hr (rest) : Running { s with writeAnswers := rest } :=
      ⟨h.params, h.status, h.address, h.frame, h.accepting, h.log⟩
    rw [runProg]
    rcases memWrite_cases s.addr [strobeByte en s.frame] s with ⟨_, e⟩ | ⟨rest, _, e⟩ | ⟨rest, _, e⟩ <;> rw [e]
    · exact h.waitAt _ rfl hg
    · exact ih _ ((hr rest).emit (hev .ok)) hk
    · exact ((hr rest).emit (hev .error)).finish _
  | sleep d k ih =>
    rw [runProg]
    rcases sleepFor_cases (delayMs s.params d) s with ⟨_, e⟩ | ⟨hold, _, e⟩ <;> rw [e]
    · exact h.waitAt _ rfl hg
    · have hr : Running { s with delayHold := hold } :=
        ⟨h.params, h.status, h.address, h.frame, h.accepting, h.log⟩
      exact ih _ (hr.emit (eventOk_delay s.params d)) hg
  | probe at_ acc rej iha ihr =>
    obtain ⟨hc, hk⟩ := Bool.and_eq_true_iff.mp hg
    obtain ⟨hacc, hrej⟩ := Bool.and_eq_true_iff.mp hk
    rw [runProg]
    obtain ⟨hr, hkn⟩ := h.probe hc at_
    generalize probeFrom at_ s = r at hr hkn ⊢
    cases r with
    | accept s1 => exact iha _ hr (by rwa [show known s1 = known s from hkn])
    | reject s1 => exact ihr _ hr (by rwa [show known s1 = known s from hkn])
    | raised s1 => exact hr.finish _
    | wait p1 s1 =>
      exact hr.waitAt (.probe p1 acc rej) (by cases p1 <;> rfl) (hkn ▸ hg)

/-! ### Every command's micro-program keeps the rules -/

section
variable (g : Known) (k : Prog)

theorem guarded_sendNibble (p : Byte) : (sendNibble p k).guarded g = (g.valid && k.guarded g) := by
  cases hv : g.valid <;> simp [sendNibble, writeFrame, Prog.guarded, hv]

theorem guarded_sendCommand (b : Byte) : (sendCommand b k).guarded g = (g.valid && k.guarded g) := by
  simp [sendCommand, Prog.guarded, guarded_sendNibble]

theorem guarded_sendData (b : Byte) : (sendData b k).guarded g = (g.valid && k.guarded g) := by
  simp [sendData, Prog.guarded, guarded_sendNibble]

variable {g k}

theorem guarded_sendText (hv : g.valid = true) (hk : k.guarded g = true) (text : List Byte) :
    (sendText text k).guarded g = true := by
  induction text with
  | nil => exact hk
  | cons b bs ih => rw [sendText, guarded_sendData, hv, ih]; rfl

theorem guarded_initWith {a : Addr} (ha : a ≠ 0) : (initWith a).guarded g = true := by
  simp only [initWith, bringUp, Prog.guarded, guarded_sendNibble, guarded_sendCommand, decide_eq_true ha, Bool.not_true,
    Bool.false_or, Bool.and_self]

/-- A scan probes candidates only; `found` and `k` are reached with a candidate in CAND. -/
theorem guarded_scan {found : Addr → Prog} {as : List Addr}
    (has : ∀ a ∈ as, candidates.contains a = true ∧ (found a).guarded { g with candidate := true } = true)
    (hk : ∀ c, k.guarded { g with candidate := c } = true) : (scan found as k).guarded g = true := by
  induction as generalizing g with
  | nil => exact hk g.candidate
  | cons a as ih =>
    obtain ⟨⟨hc, hf⟩, has⟩ := List.forall_mem_cons.mp has
    simp only [scan, Prog.guarded, hc, hf, Bool.true_and]
    exact ih has hk

theorem guarded_resolver {found : Addr → Prog}
    (hf : ∀ a ∈ candidates, (found a).guarded { g with candidate := true } = true)
    (hk : ∀ c, k.guarded { g with candidate := c } = true) : (resolver found k).guarded g = true := by
  have hw {as : List Addr} (has : as ⊆ candidates) (a : Addr) (ha : a ∈ as) :
      candidates.contains a = true ∧ (found a).guarded { g with candidate := true } = true :=
    ⟨List.contains_iff_mem.mpr (has ha), hf a (has ha)⟩
  exact guarded_scan (hw (by decide)) fun c => guarded_scan (g := { g with candidate := c }) (hw (by decide)) hk

theorem guarded_progOf (i : Instr) (h : needsAddr i = true → g.valid = true) : (progOf i).guarded g = true := by
  cases i with
  | init a =>
    by_cases ha : a = 0
    · have hne : ∀ a ∈ candidates, a ≠ 0 := by decide
      simp only [progOf, initProg, if_pos ha, Prog.guarded, Bool.not_false, Bool.true_or, Bool.true_and]
      exact guarded_resolver (fun a ha => guarded_initWith (hne a ha)) fun _ => rfl
    · simp only [progOf, initProg, if_neg ha, Prog.guarded, Bool.not_false, Bool.true_or, Bool.true_and]
      exact guarded_initWith ha
  | resolve => exact guarded_resolver (fun _ _ => rfl) fun _ => rfl
  | showString col row text | showNumber col row n =>
    rw [progOf, showStringProg, guarded_sendCommand, h rfl, guarded_sendText (h rfl) rfl]; rfl
  | displayOn | displayOff | clear | scrollLeft | scrollRight | sendCommand b =>
    rw [progOf, guarded_sendCommand, h rfl]; rfl
  | backlightOn | backlightOff => rw [progOf, Prog.guarded, guarded_sendCommand, h rfl]; rfl
  | sendData b => rw [progOf, guarded_sendData, h rfl]; rfl
  | sendNibble p => rw [progOf, guarded_sendNibble, h rfl]; rfl

end

theorem exec_inv {i : Instr} {s t : State} (h : Running s) (he : exec i s = .next t) : Inv t := by
  rw [exec_eq] at he
  obtain rfl := Host.Outcome.next.inj he
  split
  · exact h.finish _
  · rename_i hn
    exact runProg_inv _ s h (guarded_progOf i fun hi => (Bool.not_eq_false _).mp fun hv => hn ⟨hi, hv⟩)

/-! ### The steps that do not run a command -/

theorem takeReset_inv {s : State} (h : Inv s) : Inv (takeReset s) :=
  ⟨h.params, by simp, by simp, by simp, by simp, by simp, h.log⟩

/-- Words are taken one command at a time: a command is whole, or operand words are still awaited (30 R75). -/
theorem fetchOperands_cases {s : State} (h : Inv s) (hs : s.seq = .idle) (ho : s.opnd.length ≤ operandWords s.cmd) :
    (∃ t, fetchOperands s = .command t ∧ Running t) ∨ ∃ t, fetchOperands s = .notYet t ∧ Inv t := by
  unfold fetchOperands
  split
  · exact .inl ⟨_, rfl, h.params, h.status, h.address, h.frame, rfl, h.log⟩
  · refine .inr ⟨_, rfl, h.params, h.status, h.address, h.frame, by simp [hs], fun _ => ⟨hs, ?_⟩, h.log⟩
    simp only [latchOperands_opnd, latchOperands_cmd, List.length_append, List.length_take, operandsMissing]
    omega

theorem fetch_cases {s : State} (h : Inv s) (hs : s.seq = .idle) :
    (∃ t, fetch s = .command t ∧ Running t) ∨ ∃ t, fetch s = .notYet t ∧ Inv t := by
  unfold fetch
  split
  · exact fetchOperands_cases h hs (h.accepting ‹_›).2
  · cases hw : s.hostWords with
    | nil => exact .inr ⟨s, rfl, h⟩
    | cons w rest =>
      have hi : Inv (latchCommand w rest s) :=
        ⟨h.params, h.status, h.address, h.frame, by simp [hs], fun _ => ⟨hs, Nat.zero_le _⟩, h.log⟩
      exact fetchOperands_cases hi hs (Nat.zero_le _)

/-- Settles O3: the clauses of `Running` hold along a micro-program that keeps the rules (`runProg_inv`), as every
command's does (`guarded_progOf`). -/
theorem stepKeepsTheInvariant : Obligations.StepKeepsTheInvariant := by
  intro s t h ht
  rcases step_cases s with ⟨_, e⟩ | ⟨_, hb, e⟩ | ⟨_, hs, s1, hf, e⟩ | ⟨_, hs, s1, i, hf, _, e⟩ |
    ⟨_, hs, s1, r, hf, _, e⟩
  · obtain rfl := Host.Outcome.next.inj (e.symm.trans ht)
    exact takeReset_inv h
  · obtain rfl := Host.Outcome.next.inj (e.symm.trans ht)
    have ha : s.accepting = false := by
      cases ha : s.accepting with
      | false => rfl
      | true => simp [(h.accepting ha).1] at hb
    exact runProg_inv s.prog s ⟨h.params, h.status, h.address, h.frame, ha, h.log⟩ (h.busy hb).2
  · obtain rfl := Host.Outcome.next.inj (e.symm.trans ht)
    rcases fetch_cases h hs with ⟨u, hu, _⟩ | ⟨u, hu, hi⟩ <;> rw [hf] at hu <;> cases hu
    exact hi
  · rcases fetch_cases h hs with ⟨u, hu, hr⟩ | ⟨u, hu, _⟩ <;> rw [hf] at hu <;> cases hu
    exact exec_inv hr (e.symm.trans ht)
  · obtain rfl := Host.Outcome.next.inj (e.symm.trans ht)
    rcases fetch_cases h hs with ⟨u, hu, hr⟩ | ⟨u, hu, _⟩ <;> rw [hf] at hu <;> cases hu
    exact hr.finish _

/-- Settles O2. -/
theorem resetMeetsTheInvariant : Obligations.ResetMeetsTheInvariant :=
  ⟨rfl, by decide, by decide, by decide, by decide, by decide, by decide⟩

/-- Settles O1: the reset values are those `takeReset` gives. -/
theorem resetSetsTheRegisters : Obligations.ResetSetsTheRegisters := by
  refine ⟨⟨rfl, rfl, rfl, rfl, rfl, rfl, ⟨rfl, rfl, rfl⟩, rfl⟩, fun s hs => ?_⟩
  exact ⟨takeReset s, by simp [step, hs], rfl, rfl, rfl, rfl, rfl, rfl, ⟨rfl, rfl, rfl⟩, rfl, rfl, rfl⟩

/-- Settles O9: a BUSY bridge goes on with its micro-program, which writes none of these (`runProg_sameOutside`). -/
theorem busyBridgeAcceptsNothing : Obligations.BusyBridgeAcceptsNothing := by
  intro s hr hs
  have o := runProg_sameOutside s.prog s
  exact ⟨runProg s.prog s, by simp [step, hr, hs, resume], o.hostWords, o.cmd, o.opnd, o.accepting, o.params⟩

/-! ## A command ends when its transactions are answered -/

/-- The most answers of one kind that a micro-program can use up when a frame write uses `n`: with `n = 1` answers to
writes, with `n = 0` to reads. A probe uses two of either (40 R80). -/
def Prog.answers (n : Nat) : Prog → Nat
  | .complete _ => 0
  | .set _ k => k.answers n
  | .compose _ k => k.answers n
  | .frameWrite _ k => k.answers n + n
  | .sleep _ k => k.answers n
  | .probe _ acc rej => max (acc.answers n) (rej.answers n) + 2

/-- The transport has answers for the whole micro-program, and no delay is held up. -/
structure Supplied (p : Prog) (s : State) : Prop where
  hold : s.delayHold = none
  writes : p.answers 1 ≤ s.writeAnswers.length
  reads : p.answers 0 ≤ s.readAnswers.length

/-- After a probe there are answers left for what follows, and it does not wait. -/
theorem Supplied.probe {at_ : ProbeStep} {acc rej : Prog} {s : State} (h : Supplied (.probe at_ acc rej) s) :
    Supplied acc (probeFrom at_ s).state ∧ Supplied rej (probeFrom at_ s).state ∧
      ∀ q t, probeFrom at_ s ≠ .wait q t := by
  obtain ⟨hold, hw, hr⟩ := h
  obtain ⟨es, hes, -, hws, hrs, -, hwait⟩ := probeFrom_probed at_ s
  have hhold : (probeFrom at_ s).state.delayHold = none := Option.map_eq_none_iff.mp (hes.hold.symm.trans hold)
  have hwl := congrArg List.length hes.writes
  have hrl := congrArg List.length hes.reads
  rw [List.length_append] at hwl hrl
  simp only [Prog.answers] at hw hr
  refine ⟨⟨hhold, by omega, by omega⟩, ⟨hhold, by omega, by omega⟩, fun q t hq => ?_⟩
  rw [hq] at hwl hrl
  rcases hwait q t hq with ⟨ht, hlt⟩ | ⟨ht, hlt⟩
  · simp only [ProbeResult.state, ht, List.length_nil] at hwl; omega
  · simp only [ProbeResult.state, ht, List.length_nil] at hrl; omega

theorem runProg_idle_of_supplied (p : Prog) (s : State) (h : Supplied p s) : (runProg p s).seq = .idle := by
  induction p generalizing s with
  | complete st => rfl
  | set w k ih =>
    have hf := Follows.apply w s
    exact ih _ ⟨by simpa [hf.hold] using h.hold, by simpa [hf.writes, Prog.answers] using h.writes,
      by simpa [hf.reads, Prog.answers] using h.reads⟩
  | compose p k ih => exact ih _ ⟨h.hold, h.writes, h.reads⟩
  | frameWrite en k ih =>
    have hw := h.writes
    rw [runProg]
    rcases memWrite_cases s.addr [strobeByte en s.frame] s with ⟨hn, e⟩ | ⟨rest, hn, e⟩ | ⟨rest, hn, e⟩ <;> rw [e]
    · simp [hn, Prog.answers] at hw
    · exact ih _ ⟨h.hold, by simpa [hn, Prog.answers] using hw, h.reads⟩
    · rfl
  | sleep d k ih =>
    rw [runProg_sleep d k s h.hold]
    exact ih _ ⟨h.hold, h.writes, h.reads⟩
  | probe at_ acc rej iha ihr =>
    obtain ⟨ha, hr, hwait⟩ := h.probe
    rw [runProg]
    generalize probeFrom at_ s = r at ha hr hwait ⊢
    cases r with
    | accept s1 => exact iha _ ha
    | reject s1 => exact ihr _ hr
    | raised s1 => rfl
    | wait p1 s1 => exact absurd rfl (hwait p1 s1)

section
variable (n : Nat) (p b : Byte) (k : Prog)

theorem answers_sendNibble : (sendNibble p k).answers n = k.answers n + 3 * n := by
  simp only [sendNibble, writeFrame, Prog.answers]; omega

theorem answers_sendCommand : (sendCommand b k).answers n = k.answers n + 6 * n := by
  simp only [sendCommand, Prog.answers, answers_sendNibble]; omega

theorem answers_sendData : (sendData b k).answers n = k.answers n + 6 * n := by
  simp only [sendData, Prog.answers, answers_sendNibble]; omega

theorem answers_sendText (text : List Byte) : (sendText text k).answers n = k.answers n + 6 * n * text.length := by
  induction text with
  | nil => rfl
  | cons b bs ih => rw [sendText, answers_sendData, ih, List.length_cons, Nat.mul_succ, Nat.add_assoc]

theorem answers_showString (col row : Byte) (text : List Byte) :
    (showStringProg col row text).answers n = 6 * n * (1 + text.length) := by
  rw [showStringProg, answers_sendCommand, answers_sendText, Prog.answers, Nat.mul_add]; omega

theorem answers_initWith (a : Addr) : (initWith a).answers n = 36 * n := by
  simp only [initWith, bringUp, Prog.answers, answers_sendNibble, answers_sendCommand]; omega

variable {n m : Nat} {found : Addr → Prog} {k : Prog}

theorem answers_scan (hf : ∀ a, (found a).answers n ≤ m) (hk : k.answers n ≤ m) (as : List Addr) :
    (scan found as k).answers n ≤ m + 2 * as.length := by
  induction as with
  | nil => exact hk
  | cons a as ih =>
    have := hf a
    simp only [scan, Prog.answers, List.length_cons]
    omega

theorem answers_resolver (hf : ∀ a, (found a).answers n ≤ m) (hk : k.answers n ≤ m) :
    (resolver found k).answers n ≤ m + 32 :=
  answers_scan (fun a => (hf a).trans (Nat.le_add_right m 16)) (answers_scan hf hk windowB) windowA

end

theorem decDigits_length (fuel n : Nat) (acc : List Byte) : (decDigits fuel n acc).length ≤ fuel + acc.length := by
  induction fuel generalizing n acc with
  | zero => simp [decDigits]
  | succ fuel ih =>
    rw [decDigits]
    split
    · simp only [List.length_cons]; omega
    · exact (ih _ _).trans (by simp only [List.length_cons]; omega)

/-- A minus sign and ten digits at most (42 R105). -/
theorem dec_length (n : Word) : (dec n).length ≤ 11 := by
  have h : (decNat n.toInt.natAbs).length ≤ 10 := decDigits_length 10 _ []
  unfold dec
  split
  · exact Nat.succ_le_succ h
  · omega

theorem decDigits_ne_nil {fuel : Nat} {acc : List Byte} (h : fuel ≠ 0 ∨ acc ≠ []) (n : Nat) :
    decDigits fuel n acc ≠ [] := by
  induction fuel generalizing n acc with
  | zero => exact h.neg_resolve_left rfl
  | succ fuel ih =>
    rw [decDigits]
    split
    · exact List.cons_ne_nil _ _
    · exact ih (.inr (List.cons_ne_nil _ _)) _

/-- A number has a digit (42 R105). -/
theorem dec_ne_nil (n : Word) : dec n ≠ [] := by
  unfold dec
  split
  · exact List.cons_ne_nil _ _
  · exact decDigits_ne_nil (.inl (by decide)) _

/-- The bounds of 10 R26, 70 R146 are those of the micro-programs. -/
theorem answers_progOf (i : Instr) : (progOf i).answers 1 ≤ writeBound i ∧ (progOf i).answers 0 ≤ readBound i := by
  cases i with
  | init a =>
    have hi (n : Nat) : (progOf (.init a)).answers n ≤ 36 * n + 32 := by
      simp only [progOf, initProg, Prog.answers]
      split
      · exact answers_resolver (fun a => (answers_initWith n a).le) (Nat.zero_le _)
      · rw [answers_initWith]; omega
    exact ⟨hi 1, hi 0⟩
  | resolve =>
    have hr (n : Nat) : resolveProg.answers n ≤ 0 + 32 := answers_resolver (fun _ => le_rfl) le_rfl
    exact ⟨hr 1, hr 0⟩
  | showString col row text => simp only [progOf, answers_showString]; exact ⟨by simp [writeBound], by simp⟩
  | showNumber col row n =>
    have := dec_length n
    simp only [progOf, answers_showString, writeBound]
    omega
  | displayOn | displayOff | clear | backlightOn | backlightOff | scrollLeft | scrollRight | sendCommand b
  | sendData b | sendNibble p => exact ⟨le_rfl, le_rfl⟩

/-- Settles O39: as many answers as a micro-program can use up keep it from waiting (`runProg_idle_of_supplied`). -/
theorem answeredCommandsEnd : Obligations.AnsweredCommandsEnd := by
  intro i s hold hw hr
  obtain ⟨hpw, hpr⟩ := answers_progOf i
  refine ⟨_, exec_eq i s, ?_⟩
  split
  · rfl
  · exact runProg_idle_of_supplied _ s ⟨hold, hpw.trans hw, hpr.trans hr⟩

/-! ## Waiting: further answers, another hold, and what was in execution do not change what a probe does -/

/-- The transaction that the probe is at has no answer yet. -/
def Unanswered (s : State) : ProbeStep → Prop
  | .writeOnes => s.writeAnswers = []
  | .readFirst => s.readAnswers = []
  | .writeZero => s.writeAnswers = []
  | .readSecond => s.readAnswers = []

theorem probeFrom_unanswered {s : State} {p : ProbeStep} (h : Unanswered s p) : probeFrom p s = .wait p s := by
  cases p with
  | writeOnes => rw [probeFrom, probeWriteOnes, memWrite_wait _ _ _ h]
  | readFirst => rw [probeFrom, probeReadFirst, memRead_wait _ _ h]
  | writeZero => rw [probeFrom, probeWriteZero, memWrite_wait _ _ _ h]
  | readSecond => rw [probeFrom, probeReadSecond, memRead_wait _ _ h]

/-- What may change at a wait: answers that come, the hold on a delay, SEQ and the micro-program in execution. -/
structure Change where
  ws : List WriteAnswer
  rs : List ReadAnswer
  hold : Option Nat
  seq : Seq
  prog : Prog

/-- The state after the change. -/
def Change.apply (c : Change) (s : State) : State :=
  { s with
    writeAnswers := s.writeAnswers ++ c.ws
    readAnswers := s.readAnswers ++ c.rs
    delayHold := c.hold
    seq := c.seq
    prog := c.prog }

/-- The result of a probe from the changed state, `wait` giving the one of a transaction that had no answer. -/
def ProbeResult.change (c : Change) (wait : ProbeStep → State → ProbeResult) : ProbeResult → ProbeResult
  | .accept s => .accept (c.apply s)
  | .reject s => .reject (c.apply s)
  | .raised s => .raised (c.apply s)
  | .wait p s => wait p s

namespace Change

section
variable (c : Change) {s : State} (a : Addr) (bs : List Byte)

theorem memWrite_ok_apply {rest : List WriteAnswer} (h : s.writeAnswers = .ok :: rest) :
    memWrite a bs (c.apply s) = .ok () (c.apply (emit (.write a bs .ok) { s with writeAnswers := rest })) :=
  memWrite_ok a bs _ _ (congrArg (· ++ c.ws) h)

theorem memWrite_error_apply {rest : List WriteAnswer} (h : s.writeAnswers = .error :: rest) :
    memWrite a bs (c.apply s) = .error (c.apply (emit (.write a bs .error) { s with writeAnswers := rest })) :=
  memWrite_error a bs _ _ (congrArg (· ++ c.ws) h)

theorem memRead_ok_apply {b : Byte} {rest : List ReadAnswer} (h : s.readAnswers = .ok b :: rest) :
    memRead a (c.apply s) = .ok b (c.apply (emit (.read a (.ok b)) { s with readAnswers := rest })) :=
  memRead_ok a _ b _ (congrArg (· ++ c.rs) h)

theorem memRead_error_apply {rest : List ReadAnswer} (h : s.readAnswers = .error :: rest) :
    memRead a (c.apply s) = .error (c.apply (emit (.read a .error) { s with readAnswers := rest })) :=
  memRead_error a _ _ (congrArg (· ++ c.rs) h)

end

@[simp] theorem apply_cand (c : Change) (s : State) : (c.apply s).cand = s.cand := rfl
@[simp] theorem apply_params (c : Change) (s : State) : (c.apply s).params = s.params := rfl

section
variable {c : Change} {wait : ProbeStep → State → ProbeResult}

theorem probeError_apply (s : State) : probeError (c.apply s) = (probeError s).change c wait := by
  unfold probeError
  rw [show (c.apply s).params = s.params from rfl]
  cases s.params.resolverErr <;> rfl

variable (hwait : ∀ s p, Unanswered s p → probeFrom p (c.apply s) = wait p s) (s : State)
include hwait

theorem probeFrom_of_unanswered (p : ProbeStep) (h : Unanswered s p) :
    probeFrom p (c.apply s) = (probeFrom p s).change c wait := by
  rw [hwait s p h, probeFrom_unanswered h]
  rfl

theorem probeReadSecond_apply : probeReadSecond (c.apply s) = (probeReadSecond s).change c wait := by
  rcases memRead_cases s.cand s with ⟨hr, _⟩ | ⟨b, rest, hr, e⟩ | ⟨rest, hr, e⟩
  · exact probeFrom_of_unanswered hwait s .readSecond hr
  all_goals unfold probeReadSecond
  · rw [apply_cand, c.memRead_ok_apply _ hr, e]
    generalize emit _ _ = t
    exact (apply_ite (ProbeResult.change c wait) (signature t.d1 b = true)
      (.accept { t with d2 := b }) (.reject { t with d2 := b })).symm
  · rw [apply_cand, c.memRead_error_apply _ hr, e]
    exact probeError_apply _

theorem probeWriteZero_apply : probeWriteZero (c.apply s) = (probeWriteZero s).change c wait := by
  rcases memWrite_cases s.cand (zeroProbe s.params) s with ⟨hw, _⟩ | ⟨rest, hw, e⟩ | ⟨rest, hw, e⟩
  · exact probeFrom_of_unanswered hwait s .writeZero hw
  all_goals unfold probeWriteZero
  · rw [apply_cand, apply_params, c.memWrite_ok_apply _ _ hw, e]
    exact probeReadSecond_apply hwait _
  · rw [apply_cand, apply_params, c.memWrite_error_apply _ _ hw, e]
    exact probeError_apply _

theorem probeReadFirst_apply : probeReadFirst (c.apply s) = (probeReadFirst s).change c wait := by
  rcases memRead_cases s.cand s with ⟨hr, _⟩ | ⟨b, rest, hr, e⟩ | ⟨rest, hr, e⟩
  · exact probeFrom_of_unanswered hwait s .readFirst hr
  all_goals unfold probeReadFirst
  · rw [apply_cand, c.memRead_ok_apply _ hr, e]
    generalize emit _ _ = t
    exact probeWriteZero_apply hwait { t with d1 := b.extractLsb' 0 4 }
  · rw [apply_cand, c.memRead_error_apply _ hr, e]
    exact probeError_apply _

theorem probeWriteOnes_apply : probeWriteOnes (c.apply s) = (probeWriteOnes s).change c wait := by
  rcases memWrite_cases s.cand (onesProbe s.params) s with ⟨hw, _⟩ | ⟨rest, hw, e⟩ | ⟨rest, hw, e⟩
  · exact probeFrom_of_unanswered hwait s .writeOnes hw
  all_goals unfold probeWriteOnes
  · rw [apply_cand, apply_params, c.memWrite_ok_apply _ _ hw, e]
    exact probeReadFirst_apply hwait _
  · rw [apply_cand, apply_params, c.memWrite_error_apply _ _ hw, e]
    exact probeError_apply _

theorem probeFrom_apply (p : ProbeStep) : probeFrom p (c.apply s) = (probeFrom p s).change c wait := by
  cases p with
  | writeOnes => exact probeWriteOnes_apply hwait s
  | readFirst => exact probeReadFirst_apply hwait s
  | writeZero => exact probeWriteZero_apply hwait s
  | readSecond => exact probeReadSecond_apply hwait s

end

end Change

/-! ### What was in execution does not matter -/

section
variable (en : Bool) (k : Prog) {s : State} {rest : List WriteAnswer}

theorem runProg_frameWrite_wait (h : s.writeAnswers = []) :
    runProg (.frameWrite en k) s = waitAt (.frameWrite en k) s := by
  rw [runProg, memWrite_wait _ _ _ h]

theorem runProg_frameWrite_ok (h : s.writeAnswers = .ok :: rest) :
    runProg (.frameWrite en k) s =
      runProg k (emit (.write s.addr [strobeByte en s.frame] .ok) { s with writeAnswers := rest }) := by
  rw [runProg, memWrite_ok _ _ _ _ h]

theorem runProg_frameWrite_error (h : s.writeAnswers = .error :: rest) :
    runProg (.frameWrite en k) s =
      finish .transportError (emit (.write s.addr [strobeByte en s.frame] .error) { s with writeAnswers := rest }) := by
  rw [runProg, memWrite_error _ _ _ _ h]

end

/-- No answers come and the hold stays; SEQ and the micro-program become those of a bridge waiting at `q`. -/
theorem waitAt_eq_change (q : Prog) (s : State) : waitAt q s = Change.apply ⟨[], [], s.delayHold, .busy, q⟩ s := by
  simp [waitAt, Change.apply]

theorem probeFrom_waitAt (q : Prog) (p : ProbeStep) (s : State) :
    probeFrom p (waitAt q s) = (probeFrom p s).change ⟨[], [], s.delayHold, .busy, q⟩ fun p t =>
      .wait p (Change.apply ⟨[], [], s.delayHold, .busy, q⟩ t) := by
  rw [waitAt_eq_change]
  refine Change.probeFrom_apply (fun t p h => probeFrom_unanswered ?_) s p
  cases p <;> exact (List.append_nil _).trans h

theorem probeFrom_keeps (p : ProbeStep) (s : State) :
    (probeFrom p s).state.delayHold = s.delayHold ∧ (probeFrom p s).state.seq = s.seq ∧
      (probeFrom p s).state.prog = s.prog := by
  have h := probeFrom_besideProbe p s
  simp only [besideProbe, State.mk.injEq] at h
  tauto

/-- Executing a micro-program does not depend on what was in execution before. -/
theorem runProg_waitAt (p q : Prog) (s : State) : runProg p (waitAt q s) = runProg p s := by
  induction p generalizing s with
  | complete st => rfl
  | set w k ih => exact (congrArg (runProg k) (by cases w <;> rfl)).trans (ih (w.apply s))
  | compose b k ih => exact ih { s with frame := frameOf s.bl s.rs b }
  | frameWrite en k ih =>
    have hq : (waitAt q s).writeAnswers = s.writeAnswers := rfl
    rcases hw : s.writeAnswers with _ | ⟨_ | _, rest⟩
    · rw [runProg_frameWrite_wait en k hw, runProg_frameWrite_wait en k (hq.trans hw)]; rfl
    · rw [runProg_frameWrite_ok en k hw, runProg_frameWrite_ok en k (hq.trans hw)]
      exact ih (emit _ { s with writeAnswers := rest })
    · rw [runProg_frameWrite_error en k hw, runProg_frameWrite_error en k (hq.trans hw)]; rfl
  | sleep d k ih =>
    rcases h : s.delayHold with _ | _ | n
    · rw [runProg_sleep _ _ _ h, runProg_sleep _ _ _ (by exact h)]
      exact ih (emit _ s)
    · rw [runProg_sleep_held _ _ _ h, runProg_sleep_held _ _ _ (by exact h)]; rfl
    · rw [runProg_sleep_before_hold _ _ _ n h, runProg_sleep_before_hold _ _ _ n (by exact h)]
      exact ih (emit _ { s with delayHold := some n })
  | probe at_ acc rej iha ihr =>
    obtain ⟨hh, -, -⟩ := probeFrom_keeps at_ s
    rw [runProg, runProg, probeFrom_waitAt, ← hh]
    generalize probeFrom at_ s = r at hh ⊢
    cases r with
    | accept s1 => exact (congrArg (runProg acc) (waitAt_eq_change q s1).symm).trans (iha s1)
    | reject s1 => exact (congrArg (runProg rej) (waitAt_eq_change q s1).symm).trans (ihr s1)
    | raised s1 => exact (congrArg (finish .transportError) (waitAt_eq_change q s1).symm).trans rfl
    | wait p1 s1 => exact (congrArg (waitAt (.probe p1 acc rej)) (waitAt_eq_change q s1).symm).trans rfl

/-! ### Resuming -/

/-- Further answers, and a hold on the delays to come. -/
def resupply (ws : List WriteAnswer) (rs : List ReadAnswer) (h : Option Nat) (s : State) : State :=
  withHold h (give s ws rs)

/-- Running `p` from `s` comes to a wait from which it goes on as if the further answers had been there from the
beginning, and as if the hold had counted the delays done on the way. -/
def Resumes (p : Prog) (s : State) : Prop :=
  (runProg p s).seq = .busy → ∃ es, (runProg p s).log = s.log ++ es ∧ ∀ ws rs h,
    runProg p (resupply ws rs (h.map (· + (delaysIn es).length)) s) =
      runProg (runProg p s).prog (resupply ws rs h (runProg p s))

/-- The run waits in its first delay or before it, `t` being the state and `q` the micro-program to go on with. -/
theorem Resumes.of_wait {p q : Prog} {s t : State} {es : List PortEvent} (hl : t.log = s.log ++ es)
    (hd : delaysIn es = []) (hrun : runProg p s = waitAt q t)
    (hq : ∀ ws rs h, runProg p (resupply ws rs h s) = runProg q (resupply ws rs h t)) : Resumes p s := by
  refine fun _ => ⟨es, by rw [hrun, waitAt_log, hl], fun ws rs h => ?_⟩
  have ht : runProg q (resupply ws rs h (waitAt q t)) = runProg q (resupply ws rs h t) :=
    runProg_waitAt q q (resupply ws rs h t)
  rw [hrun, waitAt_prog, ht]
  simpa [hd] using hq ws rs h

theorem Resumes.of_idle {p : Prog} {s : State} (h : (runProg p s).seq = .idle) : Resumes p s :=
  fun hb => by simp [h] at hb

/-- Completed port events before the run, the delays among them counted by the hold. -/
theorem Resumes.prepend {p k : Prog} {s t : State} {es : List PortEvent} (ht : Resumes k t)
    (hl : t.log = s.log ++ es) (hrun : runProg p s = runProg k t)
    (hp : ∀ ws rs h, runProg p (resupply ws rs (h.map (· + (delaysIn es).length)) s) = runProg k (resupply ws rs h t)) :
    Resumes p s := by
  intro hb
  rw [hrun] at hb ⊢
  obtain ⟨fs, hfs, hr⟩ := ht hb
  refine ⟨es ++ fs, by rw [hfs, hl, List.append_assoc], fun ws rs h => ?_⟩
  have hcount : h.map (· + (delaysIn (es ++ fs)).length) =
      (h.map (· + (delaysIn fs).length)).map (· + (delaysIn es).length) := by
    simp [Function.comp_def, Nat.add_assoc, Nat.add_comm (es.filterMap PortEvent.delay?).length]
  rw [hcount, hp, hr]

/-- Completed port events without a delay before the run. -/
theorem Resumes.prepend_no_delay {p k : Prog} {s t : State} {es : List PortEvent} (ht : Resumes k t)
    (hl : t.log = s.log ++ es) (hd : delaysIn es = []) (hrun : runProg p s = runProg k t)
    (hp : ∀ ws rs h, runProg p (resupply ws rs h s) = runProg k (resupply ws rs h t)) : Resumes p s :=
  ht.prepend hl hrun fun ws rs h => by simpa [hd] using hp ws rs h

/-- The result of a probe after the answers have come; where it waited it goes on. -/
def ProbeResult.resupply (ws : List WriteAnswer) (rs : List ReadAnswer) (h : Option Nat) : ProbeResult → ProbeResult
  | .accept s => .accept (Machine.resupply ws rs h s)
  | .reject s => .reject (Machine.resupply ws rs h s)
  | .raised s => .raised (Machine.resupply ws rs h s)
  | .wait p s => probeFrom p (Machine.resupply ws rs h s)

theorem probeFrom_resupply (ws : List WriteAnswer) (rs : List ReadAnswer) (h : Option Nat) (p : ProbeStep) (s : State) :
    probeFrom p (resupply ws rs h s) = (probeFrom p s).resupply ws rs h := by
  obtain ⟨-, hseq, hprog⟩ := probeFrom_keeps p s
  refine (Change.probeFrom_apply (c := ⟨ws, rs, h, s.seq, s.prog⟩) (fun _ _ _ => rfl) s p).trans ?_
  rw [← hseq, ← hprog]
  cases probeFrom p s <;> rfl

/-- A run that waits goes on from there as if it had not waited. -/
theorem runProg_resumes (p : Prog) (s : State) : Resumes p s := by
  induction p generalizing s with
  | complete st => exact .of_idle rfl
  | set w k ih =>
    refine (ih (w.apply s)).prepend_no_delay (Follows.apply w s).log rfl rfl fun ws rs h => ?_
    cases w <;> rfl
  | compose b k ih =>
    exact (ih { s with frame := frameOf s.bl s.rs b }).prepend_no_delay (List.append_nil _).symm rfl rfl
      fun _ _ _ => rfl
  | frameWrite en k ih =>
    rcases hw : s.writeAnswers with _ | ⟨_ | _, rest⟩
    · exact .of_wait (List.append_nil _).symm rfl (runProg_frameWrite_wait en k hw) fun _ _ _ => rfl
    · exact (ih _).prepend_no_delay rfl rfl (runProg_frameWrite_ok en k hw) fun ws rs h =>
        runProg_frameWrite_ok en k (s := resupply ws rs h s) (congrArg (· ++ ws) hw)
    · exact .of_idle (by rw [runProg_frameWrite_error en k hw]; rfl)
  | sleep d k ih =>
    rcases sleepFor_cases (delayMs s.params d) s with ⟨hh, _⟩ | ⟨h', _, e⟩
    · exact .of_wait (List.append_nil _).symm rfl (runProg_sleep_held d k s hh) fun _ _ _ => rfl
    · refine (ih _).prepend rfl (by rw [runProg, e]) fun ws rs h => ?_
      cases h <;> rfl
  | probe at_ acc rej iha ihr =>
    obtain ⟨es, hes, hd⟩ := probeFrom_transacts at_ s
    have hr ws rs h := probeFrom_resupply ws rs h at_ s
    generalize hres : probeFrom at_ s = r at hes hr
    cases r with
    | accept s1 =>
      exact (iha s1).prepend_no_delay hes.log hd (by rw [runProg, hres]) fun ws rs h => by rw [runProg, hr]; rfl
    | reject s1 =>
      exact (ihr s1).prepend_no_delay hes.log hd (by rw [runProg, hres]) fun ws rs h => by rw [runProg, hr]; rfl
    | raised s1 => exact .of_idle (by rw [runProg, hres]; rfl)
    | wait p1 s1 =>
      exact .of_wait (q := .probe p1 acc rej) (t := s1) hes.log hd (by rw [runProg, hres]) fun ws rs h => by
        rw [runProg, hr, runProg]; rfl

/-- Settles O11: the run of the command's micro-program resumes (`runProg_resumes`); that answers come and the hold
stays is the case of the hold that is left at the wait (`Follows.hold`). -/
theorem waitingIsTransparent : Obligations.WaitingIsTransparent := by
  intro i s t ws rs he hb hr
  rw [exec_eq] at he
  obtain rfl := Host.Outcome.next.inj he
  by_cases hn : needsAddr i = true ∧ s.addrValid = false
  · rw [if_pos hn] at hb; cases hb
  rw [if_neg hn] at hb hr ⊢
  obtain ⟨es, hl, hres⟩ := runProg_resumes (progOf i) s hb
  obtain ⟨fs, hf⟩ := runProg_reaches (progOf i) s
  obtain rfl : fs = es := List.append_cancel_left (hf.log.symm.trans hl)
  have hexec h : exec i (resupply ws rs (h.map (· + (delaysIn fs).length)) s) =
      step (resupply ws rs h (runProg (progOf i) s)) := by
    have hstep : step (resupply ws rs h (runProg (progOf i) s)) =
        .next (runProg (runProg (progOf i) s).prog (resupply ws rs h (runProg (progOf i) s))) := by
      simp [step, resume, resupply, withHold, give, hb, hr]
    rw [hstep, ← hres, exec_eq]
    exact congrArg Host.Outcome.next (if_neg hn)
  refine ⟨?_, fs, hl, hexec⟩
  have := hexec (runProg (progOf i) s).delayHold
  rwa [← hf.hold] at this

/-! ## Frames: a run of frame writes with the flags as they stand (10 R21, R22, R30) -/

/-- An event of a run of frame writes to `a`: what is written is one frame, with the flags BL and RS in it. -/
def FrameEvent (a : Addr) (bl rs : Bool) : PortEvent → Prop
  | .write a' bs _ => a' = a ∧ ∃ b, bs = [b] ∧ b.getLsbD 3 = bl ∧ b.getLsbD 0 = rs
  | .read _ _ => False
  | .delay _ => True
  | .response _ => True

/-- `t` is reached from `s` by the events `es` of a run of frame writes, in which the flags and addresses stay. -/
structure Frames (s : State) (es : List PortEvent) (t : State) : Prop where
  log : t.log = s.log ++ es
  addr : t.addr = s.addr
  addrValid : t.addrValid = s.addrValid
  resultAddr : t.resultAddr = s.resultAddr
  bl : t.bl = s.bl
  rs : t.rs = s.rs
  events : ∀ e ∈ es, FrameEvent s.addr s.bl s.rs e

/-- The frames written among some port events. -/
abbrev framesIn (es : List PortEvent) : List Byte := es.filterMap PortEvent.frame?

/-- How many port events SEQ_POS counts among some. -/
abbrev countIn (es : List PortEvent) : Nat := (es.filter PortEvent.counted).length

theorem framesIn_append (es fs : List PortEvent) : framesIn (es ++ fs) = framesIn es ++ framesIn fs :=
  List.filterMap_append

theorem countIn_append (es fs : List PortEvent) : countIn (es ++ fs) = countIn es + countIn fs := by
  rw [countIn, List.filter_append, List.length_append]

namespace Frames

variable {s t u : State} {es fs : List PortEvent}

theorem refl (s : State) : Frames s [] s := ⟨by simp, rfl, rfl, rfl, rfl, rfl, by simp⟩

theorem trans (h : Frames s es t) (k : Frames t fs u) : Frames s (es ++ fs) u := by
  refine ⟨by rw [k.log, h.log, List.append_assoc], k.addr.trans h.addr, k.addrValid.trans h.addrValid,
    k.resultAddr.trans h.resultAddr, k.bl.trans h.bl, k.rs.trans h.rs, fun e he => ?_⟩
  rcases List.mem_append.mp he with he | he
  · exact h.events e he
  · rw [← h.addr, ← h.bl, ← h.rs]
    exact k.events e he

theorem finish (st : Status) (s : State) :
    Frames s [.response (responseWord { s with status := st.code })] (finish st s) :=
  ⟨rfl, rfl, rfl, rfl, rfl, rfl, by simp [FrameEvent]⟩

theorem waitAt (p : Prog) (s : State) : Frames s [] (waitAt p s) := ⟨by simp, rfl, rfl, rfl, rfl, rfl, by simp⟩

/-- Every frame carries RS (R30). -/
theorem rs_of_mem (h : Frames s es t) {b : Byte} (hb : b ∈ framesIn es) : b.getLsbD 0 = s.rs := by
  obtain ⟨e, he, hf⟩ := List.mem_filterMap.mp hb
  have hev := h.events e he
  cases e with
  | write a bs r =>
    obtain ⟨-, b', rfl, -, hrs⟩ := hev
    rw [← Option.some.inj hf, hrs]
  | read | delay | response => cases hf

end Frames

/-- The part `c` of a micro-program, run from any state with `P`, is a run of frame writes: made whole, `m` frames and `n`
port events, after which `P` holds and the rest follows; or stopped before its last port event is complete. -/
def Sends (P : State → Prop) (m n : Nat) (c : Prog → Prog) : Prop :=
  ∀ k s, P s → ∃ es t, Frames s es t ∧
    (P t ∧ (framesIn es).length = m ∧ countIn es = n ∧ runProg (c k) s = runProg k t ∨
     (framesIn es).length ≤ m ∧ countIn es < n ∧ runProg (c k) s = t)

namespace Sends

variable {P : State → Prop} {m n m' n' : Nat} {c d : Prog → Prog}

theorem id (P : State → Prop) : Sends P 0 0 fun k => k := fun _ s hs =>
  ⟨[], s, .refl s, .inl ⟨hs, rfl, rfl, rfl⟩⟩

theorem comp (hc : Sends P m n c) (hd : Sends P m' n' d) : Sends P (m + m') (n + n') (c ∘ d) := by
  intro k s hs
  obtain ⟨es, t, hes, ⟨ht, hm, hn, hrun⟩ | ⟨hm, hn, hrun⟩⟩ := hc (d k) s hs
  · obtain ⟨fs, u, hfs, ⟨hu, hm', hn', hrun'⟩ | ⟨hm', hn', hrun'⟩⟩ := hd k t ht
    · exact ⟨es ++ fs, u, hes.trans hfs, .inl ⟨hu, by rw [framesIn_append, List.length_append, hm, hm'],
        by rw [countIn_append, hn, hn'], hrun.trans hrun'⟩⟩
    · refine ⟨es ++ fs, u, hes.trans hfs, .inr ⟨?_, ?_, hrun.trans hrun'⟩⟩
      · rw [framesIn_append, List.length_append]; omega
      · rw [countIn_append]; omega
  · exact ⟨es, t, hes, .inr ⟨by omega, by omega, hrun⟩⟩

/-- The command ends after the part. -/
theorem complete (hc : Sends P m n c) (st : Status) {s : State} (hs : P s) :
    ∃ es, Frames s es (runProg (c (.complete st)) s) := by
  obtain ⟨es, t, hes, ⟨-, -, -, hrun⟩ | ⟨-, -, hrun⟩⟩ := hc (.complete st) s hs
  · exact ⟨_, by rw [hrun]; exact hes.trans (.finish st t)⟩
  · exact ⟨es, by rwa [hrun]⟩

end Sends

/-- The frame `f` is composed from the flags `bl` and `rs` (41 R90). -/
structure Composed (f : Byte) (bl rs : Bool) : Prop where
  clear : FrameClear f
  bl : f.getLsbD 3 = bl
  rs : f.getLsbD 0 = rs

theorem composed_frameOf (bl rs : Bool) (p : Byte) : Composed (frameOf bl rs p) bl rs :=
  ⟨frameOf_clear bl rs p, frameOf_bl bl rs p, frameOf_rs bl rs p⟩

/-- A write of a composed frame, EN set or not, carries the flags. -/
theorem Composed.frameEvent {f : Byte} {bl rs : Bool} (h : Composed f bl rs) (a : Addr) (en : Bool) (r : WriteAnswer) :
    FrameEvent a bl rs (.write a [strobeByte en f] r) :=
  ⟨rfl, _, rfl, by rw [strobeByte_getLsbD h.clear en (by decide), h.bl],
    by rw [strobeByte_getLsbD h.clear en (by decide), h.rs]⟩

theorem sends_sleep {P : State → Prop} (hP : ∀ s ms h, P s → P (emit (.delay ms) { s with delayHold := h }))
    (d : Delay) : Sends P 0 1 (.sleep d) := by
  intro k s hs
  rcases sleepFor_cases (delayMs s.params d) s with ⟨hh, _⟩ | ⟨h, _, e⟩
  · exact ⟨[], _, .waitAt (.sleep d k) s, .inr ⟨le_rfl, by decide, runProg_sleep_held d k s hh⟩⟩
  · have hf : Frames s [.delay (delayMs s.params d)] (emit (.delay (delayMs s.params d)) { s with delayHold := h }) :=
      ⟨rfl, rfl, rfl, rfl, rfl, rfl, by simp [FrameEvent]⟩
    exact ⟨_, _, hf, .inl ⟨hP _ _ _ hs, rfl, rfl, by rw [runProg, e]⟩⟩

/-- A frame write and its settle delay (41 R91). -/
theorem sends_writeFrame (en : Bool) : Sends (fun s => Composed s.frame s.bl s.rs) 1 2 (writeFrame en) := by
  intro k s hs
  have hf r rest : Frames s [.write s.addr [strobeByte en s.frame] r]
      (emit (.write s.addr [strobeByte en s.frame] r) { s with writeAnswers := rest }) :=
    ⟨rfl, rfl, rfl, rfl, rfl, rfl, by simpa using hs.frameEvent s.addr en r⟩
  rcases hw : s.writeAnswers with _ | ⟨_ | _, rest⟩
  · exact ⟨[], _, .waitAt _ s, .inr ⟨by decide, by decide, runProg_frameWrite_wait en _ hw⟩⟩
  · have hsleep : Sends (fun s => Composed s.frame s.bl s.rs) 0 1 (.sleep .settle) := sends_sleep (fun _ _ _ h => h) _
    obtain ⟨es, t, hes, h⟩ := hsleep k (emit _ { s with writeAnswers := rest }) hs
    refine ⟨_, t, (hf .ok rest).trans hes, ?_⟩
    rw [writeFrame, runProg_frameWrite_ok en _ hw, framesIn_append, List.length_append, countIn_append]
    rcases h with ⟨ht, hm, hn, hrun⟩ | ⟨hm, hn, hrun⟩
    · exact .inl ⟨ht, by rw [hm]; rfl, by rw [hn]; rfl, hrun⟩
    · exact .inr ⟨Nat.add_le_add_left hm 1, Nat.add_lt_add_left hn 1, hrun⟩
  · exact ⟨_, _, (hf .error rest).trans (.finish _ _), .inr ⟨le_rfl, Nat.one_lt_two, runProg_frameWrite_error en _ hw⟩⟩

section
variable (r : Bool) (p b : Byte)

/-- A nibble: three frames, each with its delay (41 R92). -/
theorem sends_sendNibble : Sends (fun s => s.rs = r) 3 6 (sendNibble p) := by
  intro k s hs
  obtain ⟨es, t, ⟨hl, ha, hv, hra, hbl, hrs, hev⟩, h⟩ :=
    ((sends_writeFrame false).comp ((sends_writeFrame true).comp (sends_writeFrame false))) k
      { s with frame := frameOf s.bl s.rs p } (composed_frameOf s.bl s.rs p)
  exact ⟨es, t, ⟨hl, ha, hv, hra, hbl, hrs, hev⟩, h.imp_left fun ⟨_, h⟩ => ⟨hrs.trans hs, h⟩⟩

/-- RS is set to the value it has, then the two nibbles follow (41 R93, R94). -/
theorem sends_byte : Sends (fun s => s.rs = r) 6 12 fun k => .set (.rs r) (sendNibble p (sendNibble b k)) := by
  intro k s hs
  have hset : { s with rs := r } = s := by rw [← hs]
  have := ((sends_sendNibble r p).comp (sends_sendNibble r b)) k s hs
  rwa [runProg_set, apply_rs, hset]

theorem sends_sendCommand : Sends (fun s => s.rs = false) 6 12 (sendCommand b) := sends_byte false b (b <<< 4)

theorem sends_sendData : Sends (fun s => s.rs = true) 6 12 (sendData b) := sends_byte true b (b <<< 4)

theorem sends_sendText (text : List Byte) : ∃ m n, Sends (fun s => s.rs = true) m n (sendText text) := by
  induction text with
  | nil => exact ⟨0, 0, .id _⟩
  | cons b bs ih =>
    obtain ⟨m, n, h⟩ := ih
    exact ⟨_, _, (sends_sendData b).comp h⟩

end

/-- The bring-up of INIT, from RS = 0 on, is one run of frame writes (42 R101). -/
theorem frames_bringUp {s : State} (hs : s.rs = false) : ∃ es, Frames s es (runProg bringUp s) :=
  have sleep := sends_sleep (P := fun s => s.rs = false) (fun _ _ _ h => h) .init
  have cmd := sends_sendCommand
  have nib := sends_sendNibble false
  ((cmd 0x33).comp <| sleep.comp <| (nib 0x30).comp <| sleep.comp <| (nib 0x20).comp <| sleep.comp <|
    (cmd 0x28).comp <| (cmd 0x0C).comp <| (cmd 0x06).comp (cmd 0x01)).complete .ok hs

/-! ## The scan: probes of candidates, which leave the flags and the addresses alone (40 R83, R86) -/

/-- `t` is reached from `s` by the events `probes` of a scan. -/
structure Scanned (s : State) (probes : List PortEvent) (t : State) : Prop where
  log : t.log = s.log ++ probes
  params : t.params = s.params
  addr : t.addr = s.addr
  addrValid : t.addrValid = s.addrValid
  resultAddr : t.resultAddr = s.resultAddr
  bl : t.bl = s.bl
  rs : t.rs = s.rs
  events : ∀ e ∈ probes, ∃ a ∈ candidates, ProbeEvent s.params a e

/-- The run to `r` starts with a scan from `s`: it ends with the readback of an address `a` and goes on with `found a`,
or it finds none and goes on with `k`, or it stops, the command ending or the bridge waiting. -/
def ScanEnds (found : Addr → Prog) (k : Prog) (s r : State) : Prop :=
  ∃ probes t, Scanned s probes t ∧
    ((∃ a b, probes.getLast? = some (.read a (.ok b)) ∧ r = runProg (found a) t) ∨ r = runProg k t ∨
      r = finish .transportError t ∨ ∃ q, r = waitAt q t)

theorem Scanned.trans {s t u : State} {ps qs : List PortEvent} (h : Scanned s ps t) (k : Scanned t qs u) :
    Scanned s (ps ++ qs) u := by
  refine ⟨by rw [k.log, h.log, List.append_assoc], k.params.trans h.params, k.addr.trans h.addr,
    k.addrValid.trans h.addrValid, k.resultAddr.trans h.resultAddr, k.bl.trans h.bl, k.rs.trans h.rs, fun e he => ?_⟩
  rcases List.mem_append.mp he with he | he
  · exact h.events e he
  · exact h.params ▸ k.events e he

theorem ScanEnds.prepend {found : Addr → Prog} {k : Prog} {s t r : State} {ps : List PortEvent} (h : Scanned s ps t) :
    ScanEnds found k t r → ScanEnds found k s r
  | ⟨qs, u, hqs, ho⟩ => ⟨ps ++ qs, u, h.trans hqs, ho.imp_left fun ⟨a, b, hl, hr⟩ =>
      ⟨a, b, by rw [List.getLast?_append, hl]; rfl, hr⟩⟩

theorem scanned_probe {a : Addr} (ha : a ∈ candidates) (s : State) :
    ∃ es, Scanned s es (probeFrom .writeOnes { s with cand := a }).state ∧
      ∀ t, probeFrom .writeOnes { s with cand := a } = .accept t → ∃ b, es.getLast? = some (.read a (.ok b)) := by
  obtain ⟨es, hes, hev, -, -, hacc, -⟩ := probeFrom_probed .writeOnes { s with cand := a }
  have hb := probeFrom_besideProbe .writeOnes { s with cand := a }
  simp only [besideProbe, State.mk.injEq] at hb
  obtain ⟨haddr, hvalid, hbl, hrs, -, hresult, -, -, -, -, -, -, -, -, -, -, -, hparams, -⟩ := hb
  exact ⟨es, ⟨hes.log, hparams, haddr, hvalid, hresult, hbl, hrs, fun e he => ⟨a, ha, hev e he⟩⟩, hacc⟩

theorem scan_ends (found : Addr → Prog) (k : Prog) {as : List Addr} (has : as ⊆ candidates) (s : State) :
    ScanEnds found k s (runProg (scan found as k) s) := by
  induction as generalizing s with
  | nil => exact ⟨[], s, ⟨by simp, rfl, rfl, rfl, rfl, rfl, rfl, by simp⟩, .inr (.inl rfl)⟩
  | cons a as ih =>
    obtain ⟨ha, has⟩ := List.cons_subset.mp has
    obtain ⟨es, hes, hacc⟩ := scanned_probe ha s
    rw [scan, runProg_set, runProg, apply_cand]
    generalize probeFrom .writeOnes { s with cand := a } = res at hes hacc ⊢
    cases res with
    | accept t =>
      obtain ⟨b, hb⟩ := hacc t rfl
      exact ⟨es, t, hes, .inl ⟨a, b, hb, rfl⟩⟩
    | reject t => exact (ih has t).prepend hes
    | raised t => exact ⟨es, t, hes, .inr (.inr (.inl rfl))⟩
    | wait q t => exact ⟨es, t, hes, .inr (.inr (.inr ⟨_, rfl⟩))⟩

/-- The resolver scans both windows (40 R83). -/
theorem resolver_ends (found : Addr → Prog) (k : Prog) (s : State) :
    ScanEnds found k s (runProg (resolver found k) s) := by
  have hwin (s : State) (w : Window) : Scanned s [] { s with win := w } :=
    ⟨by simp, rfl, rfl, rfl, rfl, rfl, rfl, by simp⟩
  obtain ⟨ps, t, hps, ho⟩ := scan_ends found (.set (.win .b) (scan found windowB k)) (as := windowA) (by decide)
    { s with win := .a }
  have hst := (hwin s .a).trans hps
  rcases ho with hf | hk | hstop
  · exact ⟨ps, t, hst, .inl hf⟩
  · rw [resolver, runProg_set, apply_win, hk]
    exact ((scan_ends found k (by decide) _).prepend (hwin t .b)).prepend hst
  · exact ⟨ps, t, hst, .inr (.inr hstop)⟩

/-! ## What a command does to BL, RS, the addresses and the bus -/

/-- The text that a command shows. -/
def shownText : Instr → Option (List Byte)
  | .showString _ _ text => some text
  | .showNumber _ _ n => some (dec n)
  | _ => none

/-- The command comes to the flag writes of its micro-program: it is not turned away, and an INIT knows its address. -/
def active (i : Instr) (s t : State) : Bool :=
  match i with
  | .init _ => t.addrValid
  | .resolve => true
  | _ => s.addrValid

theorem active_of_needsAddr {i : Instr} (h : needsAddr i = true) (s t : State) : active i s t = s.addrValid := by
  cases i with
  | init _ | resolve => cases h
  | _ => rfl

/-- What an active command leaves in BL (10 R21). -/
def blAfter (i : Instr) (bl : Bool) : Bool :=
  match i with
  | .init _ => true
  | .backlightOn => true
  | .backlightOff => false
  | _ => bl

/-- What an active command that shows no text leaves in RS (10 R22). -/
def rsAfter (i : Instr) (rs : Bool) : Bool :=
  match i with
  | .sendNibble _ => rs
  | .resolve => rs
  | .sendData _ => true
  | _ => false

/-- What a command that ends in `t` does with the events `es` after the probes of its scan: every frame goes to ADDR and
carries BL and, but in a text command, RS; an active command leaves the flags that its rules give, any other leaves them
alone. A text command leaves RS set when a data byte was reached, and its frames have RS set from the seventh on. -/
structure Effects (i : Instr) (s t : State) (es : List PortEvent) : Prop where
  bl : t.bl = if active i s t then blAfter i s.bl else s.bl
  rs : t.rs = if active i s t then
      match shownText i with
      | some x => decide (x ≠ []) && decide (12 ≤ countIn es)
      | none => rsAfter i s.rs
    else s.rs
  events : ∀ e ∈ es, ∃ rs, FrameEvent t.addr t.bl rs e ∧ (shownText i = none → rs = t.rs)
  text : (shownText i).isSome = true → ∀ (j : Nat) (b : Byte), (framesIn es)[j]? = some b → b.getLsbD 0 = decide (6 ≤ j)

/-- R19, R20, R24: who writes the addresses. -/
def AddressesKept (i : Instr) (s t : State) : Prop :=
  (∀ a, i ≠ .init a) → t.addr = s.addr ∧ t.addrValid = s.addrValid ∧ (i ≠ .resolve → t.resultAddr = s.resultAddr)

/-- The end of a command that shows nothing after its scan, if any: its response, or nothing yet. -/
theorem Effects.of_quiet {i : Instr} {s t : State} {es : List PortEvent} (hes : ∀ e ∈ es, ∃ w, e = .response w)
    (hbl : t.bl = s.bl) (hrs : t.rs = s.rs) (hi : active i s t = false ∨ i = .resolve) : Effects i s t es := by
  refine ⟨?_, ?_, fun e he => ?_, fun _ j b hj => ?_⟩
  · rcases hi with hi | rfl
    · simp [hi, hbl]
    · simp [active, blAfter, hbl]
  · rcases hi with hi | rfl
    · simp [hi, hrs]
    · simp [active, shownText, rsAfter, hrs]
  · obtain ⟨w, rfl⟩ := hes e he
    exact ⟨t.rs, trivial, fun _ => rfl⟩
  · obtain ⟨e, he, hf⟩ := List.mem_filterMap.mp (List.mem_of_getElem? hj)
    obtain ⟨w, rfl⟩ := hes e he
    cases hf

/-- A command that sends frames and shows no text. -/
theorem Effects.of_frames {i : Instr} {s t u : State} {es : List PortEvent} (h : Frames u es t)
    (hi : shownText i = none) (hact : active i s t = true) (hbl : u.bl = blAfter i s.bl) (hrs : u.rs = rsAfter i s.rs) :
    Effects i s t es where
  bl := by rw [hact, if_pos rfl, h.bl, hbl]
  rs := by rw [hact, if_pos rfl, hi, h.rs, hrs]
  events e he := ⟨t.rs, by rw [h.addr, h.bl, h.rs]; exact h.events e he, fun _ => rfl⟩
  text hs := by simp [hi] at hs

/-- A run from `s` to `t` that shows the text `x`: frames with RS clear, at most the six of the cursor command, and, when
a data byte is reached, frames with RS set after those six and their delays (42 R102). -/
def TextRun (x : List Byte) (s t : State) (es : List PortEvent) : Prop :=
  Frames { s with rs := false } es t ∧ (framesIn es).length ≤ 6 ∧ (x = [] ∨ countIn es < 12) ∨
    ∃ es1 t1 es2, es = es1 ++ es2 ∧ Frames { s with rs := false } es1 t1 ∧ Frames { t1 with rs := true } es2 t ∧
      (framesIn es1).length = 6 ∧ countIn es1 = 12 ∧ x ≠ []

theorem showString_textRun (col row : Byte) (x : List Byte) (s : State) :
    ∃ es, TextRun x s (runProg (showStringProg col row x) s) es := by
  obtain ⟨es, t, hes, ⟨-, hm, hn, hrun⟩ | ⟨hm, hn, hrun⟩⟩ :=
    sends_sendCommand (cursor col row) (sendText x (.complete .ok)) { s with rs := false } rfl
  · replace hrun : runProg (showStringProg col row x) s = runProg (sendText x (.complete .ok)) t := hrun
    rw [hrun]
    cases x with
    | nil =>
      exact ⟨_, .inl ⟨hes.trans (.finish .ok t), by rw [framesIn_append, List.length_append, hm]; rfl, .inl rfl⟩⟩
    | cons b bs =>
      obtain ⟨m, n, hsend⟩ := sends_sendText (b :: bs)
      obtain ⟨fs, hfs⟩ := hsend.complete .ok (s := { t with rs := true }) rfl
      exact ⟨es ++ fs, .inr ⟨es, t, fs, rfl, hes, hfs, hm, hn, List.cons_ne_nil b bs⟩⟩
  · exact ⟨es, .inl ⟨by rw [← hrun] at hes; exact hes, hm, .inr hn⟩⟩

theorem TextRun.log {x : List Byte} {s t : State} {es : List PortEvent} (h : TextRun x s t es) :
    t.log = s.log ++ es := by
  rcases h with ⟨h, -⟩ | ⟨es1, t1, es2, rfl, h1, h2, -⟩
  · exact h.log
  · exact (h2.log.trans (congrArg (· ++ es2) h1.log)).trans (List.append_assoc ..)

theorem TextRun.addresses {x : List Byte} {s t : State} {es : List PortEvent} (h : TextRun x s t es) :
    t.addr = s.addr ∧ t.addrValid = s.addrValid ∧ t.resultAddr = s.resultAddr := by
  rcases h with ⟨h, -⟩ | ⟨es1, t1, es2, -, h1, h2, -⟩
  · exact ⟨h.addr, h.addrValid, h.resultAddr⟩
  · exact ⟨h2.addr.trans h1.addr, h2.addrValid.trans h1.addrValid, h2.resultAddr.trans h1.resultAddr⟩

/-- A command that shows the text `x`. -/
theorem Effects.of_text {i : Instr} {s t : State} {es : List PortEvent} {x : List Byte} (hi : shownText i = some x)
    (hact : active i s t = true) (hbl : blAfter i s.bl = s.bl)
    (h : TextRun x s t es) : Effects i s t es := by
  have hnone : shownText i ≠ none := by simp [hi]
  rcases h with ⟨h, hm, hn⟩ | ⟨es1, t1, es2, rfl, h1, h2, hm, hn, hx⟩
  · refine ⟨by rw [hact, if_pos rfl, hbl, h.bl], ?_, fun e he => ?_, fun _ j b hj => ?_⟩
    · rw [hact, if_pos rfl, hi, h.rs]
      rcases hn with rfl | hn
      · simp
      · simp [Nat.not_le.mpr hn]
    · exact ⟨false, by rw [h.addr, h.bl]; exact h.events e he, fun hc => absurd hc hnone⟩
    · have hj6 : j < 6 := (List.getElem?_eq_some_iff.mp hj).1.trans_le hm
      rw [h.rs_of_mem (List.mem_of_getElem? hj), decide_eq_false (by omega)]
  · refine ⟨by rw [hact, if_pos rfl, hbl, h2.bl, h1.bl], ?_, fun e he => ?_, fun _ j b hj => ?_⟩
    · rw [hact, if_pos rfl, hi, h2.rs, countIn_append, hn]
      simp [hx]
    · rcases List.mem_append.mp he with he | he
      · exact ⟨false, by rw [h2.addr, h2.bl, h1.addr, h1.bl]; exact h1.events e he, fun hc => absurd hc hnone⟩
      · exact ⟨true, by rw [h2.addr, h2.bl]; exact h2.events e he, fun hc => absurd hc hnone⟩
    · rw [framesIn_append] at hj
      by_cases hj6 : j < 6
      · rw [List.getElem?_append_left (by rwa [hm])] at hj
        rw [h1.rs_of_mem (List.mem_of_getElem? hj), decide_eq_false (by omega)]
      · rw [List.getElem?_append_right (by omega)] at hj
        rw [h2.rs_of_mem (List.mem_of_getElem? hj), decide_eq_true (by omega)]

/-- A command that scans nothing. -/
theorem Effects.scanThenFrames {i : Instr} {s t : State} {es : List PortEvent} (h : Effects i s t es)
    (he : exec i s = .next t) (hl : t.log = s.log ++ es) (hr : i ≠ .resolve) (h0 : i ≠ .init 0) :
    ScanThenFrames i s t [] es := by
  refine ⟨he, by rw [hl, List.append_nil], fun _ _ => rfl, by simp, fun a r hm => ?_, fun h => absurd h hr,
    fun h => absurd h h0⟩
  obtain ⟨_, hf, -⟩ := h.events _ hm
  exact hf

/-- A command that scans: afterwards it sends its response only, or it sends frames to the address it found. -/
theorem Effects.scanThenFrames_of_scan {i : Instr} {s t : State} {probes es : List PortEvent} (h : Effects i s t es)
    (he : exec i s = .next t) (hl : t.log = s.log ++ probes ++ es) (hi : i = .resolve ∨ i = .init 0)
    (hev : ∀ e ∈ probes, ∃ a ∈ candidates, ProbeEvent s.params a e)
    (hes : (∀ e ∈ es, ∃ w, e = .response w) ∨ i = .init 0 ∧ ∃ b, probes.getLast? = some (.read t.addr (.ok b))) :
    ScanThenFrames i s t probes es := by
  refine ⟨he, hl, fun hr h0 => (hi.elim hr h0).elim, hev, fun a r hm => ?_, fun hr a bs r hm => ?_,
    fun h0 a bs r hm => ?_⟩
  · obtain ⟨_, hf, -⟩ := h.events _ hm
    exact hf
  · rcases hes with hes | ⟨rfl, -⟩
    · obtain ⟨w, hw⟩ := hes _ hm
      cases hw
    · cases hr
  · rcases hes with hes | ⟨-, hb⟩
    · obtain ⟨w, hw⟩ := hes _ hm
      cases hw
    · exact hb

/-- What a command that needs ADDR and shows no text finds its flags to be when its first frame is composed. -/
def entry (i : Instr) (s : State) : State := { s with bl := blAfter i s.bl, rs := rsAfter i s.rs }

theorem frames_progOf {i : Instr} (hn : needsAddr i = true) (hi : shownText i = none) (s : State) :
    ∃ es, Frames (entry i s) es (runProg (progOf i) s) := by
  cases i with
  | init _ | resolve => cases hn
  | showString _ _ _ | showNumber _ _ _ => cases hi
  | sendNibble p => exact (sends_sendNibble s.rs p).complete .ok rfl
  | sendData b => exact (sends_sendData b).complete .ok (s := entry (.sendData b) s) rfl
  | sendCommand b => exact (sends_sendCommand b).complete .ok (s := entry (.sendCommand b) s) rfl
  | displayOn => exact (sends_sendCommand 0x0C).complete .ok (s := entry .displayOn s) rfl
  | displayOff => exact (sends_sendCommand 0x08).complete .ok (s := entry .displayOff s) rfl
  | clear => exact (sends_sendCommand 0x01).complete .ok (s := entry .clear s) rfl
  | backlightOn => exact (sends_sendCommand 0x00).complete .ok (s := entry .backlightOn s) rfl
  | backlightOff => exact (sends_sendCommand 0x00).complete .ok (s := entry .backlightOff s) rfl
  | scrollLeft => exact (sends_sendCommand 0x18).complete .ok (s := entry .scrollLeft s) rfl
  | scrollRight => exact (sends_sendCommand 0x1C).complete .ok (s := entry .scrollRight s) rfl

/-- The end of a command that sends no frame: the record grows by its response or by nothing, the flags and ADDR stay. -/
structure Quiet (s t : State) (es : List PortEvent) : Prop where
  log : t.log = s.log ++ es
  addr : t.addr = s.addr
  addrValid : t.addrValid = s.addrValid
  bl : t.bl = s.bl
  rs : t.rs = s.rs
  events : ∀ e ∈ es, ∃ w, e = .response w

theorem quiet_finish (st : Status) (s : State) : ∃ es, Quiet s (finish st s) es :=
  ⟨_, rfl, rfl, rfl, rfl, rfl, by simp⟩

theorem quiet_resultAddr (a : Addr) (st : Status) (s : State) :
    ∃ es, Quiet s (runProg (.set (.resultAddr a) (.complete st)) s) es :=
  ⟨_, rfl, rfl, rfl, rfl, rfl, by simp⟩

theorem quiet_waitAt (p : Prog) (s : State) : Quiet s (waitAt p s) [] :=
  ⟨(List.append_nil _).symm, rfl, rfl, rfl, rfl, by simp⟩

/-- After the scan of the resolver the command goes on with the address it found, or it ends or waits. -/
theorem resolver_outcome (found : Addr → Prog) (s : State) :
    ∃ probes t, Scanned s probes t ∧
      ((∃ a b, probes.getLast? = some (.read a (.ok b)) ∧
          runProg (resolver found addressNotFound) s = runProg (found a) t) ∨
        ∃ es, Quiet t (runProg (resolver found addressNotFound) s) es) := by
  obtain ⟨probes, t, hs, hf | hk | hstop | ⟨q, hw⟩⟩ := resolver_ends found addressNotFound s
  · exact ⟨probes, t, hs, .inl hf⟩
  · exact ⟨probes, t, hs, .inr (hk ▸ quiet_resultAddr 0 .addressNotFound t)⟩
  · exact ⟨probes, t, hs, .inr (hstop ▸ quiet_finish _ t)⟩
  · exact ⟨probes, t, hs, .inr ⟨[], hw ▸ quiet_waitAt q t⟩⟩

/-- What executing a command comes to: its probes, then events with the effects that its rules give. -/
def HasEffects (i : Instr) (s : State) : Prop :=
  ∃ t probes es, ScanThenFrames i s t probes es ∧ Effects i s t es ∧ AddressesKept i s t

theorem resolve_hasEffects (s : State) : HasEffects .resolve s := by
  have he : exec .resolve s = .next (runProg resolveProg s) := exec_eq _ s
  obtain ⟨probes, t, hs, ho⟩ := resolver_outcome (fun a => .set (.resultAddr a) (.complete .ok)) s
  have hq : ∃ es, Quiet t (runProg resolveProg s) es := by
    rcases ho with ⟨a, b, -, hr⟩ | hq
    · exact hr ▸ quiet_resultAddr a .ok t
    · exact hq
  obtain ⟨es, hq⟩ := hq
  have heff : Effects .resolve s (runProg resolveProg s) es :=
    .of_quiet hq.events (hq.bl.trans hs.bl) (hq.rs.trans hs.rs) (.inr rfl)
  exact ⟨_, probes, es,
    heff.scanThenFrames_of_scan he (by rw [hq.log, hs.log]) (.inl rfl) hs.events (.inl hq.events), heff,
    fun _ => ⟨hq.addr.trans hs.addr, hq.addrValid.trans hs.addrValid, fun h => absurd rfl h⟩⟩

theorem init_addressesKept (a : Addr) (s t : State) : AddressesKept (.init a) s t := fun h => absurd rfl (h a)

/-- Once INIT knows its address it makes its register writes and sends one run of frames (42 R100). -/
theorem frames_initWith (a : Addr) (s : State) : ∃ es, Frames (initReady a s) es (runProg (initWith a) s) :=
  frames_bringUp (s := initReady a s) rfl

theorem effects_initWith (a a' : Addr) (s s' : State) {es : List PortEvent}
    (h : Frames (initReady a s') es (runProg (initWith a) s')) :
    Effects (.init a') s (runProg (initWith a) s') es :=
  .of_frames h rfl h.addrValid rfl rfl

theorem init_hasEffects (a : Addr) (s : State) : HasEffects (.init a) s := by
  have he : exec (.init a) s = .next (runProg (initProg a) s) := exec_eq _ s
  by_cases ha : a = 0
  · subst ha
    obtain ⟨probes, t, hs, ⟨a, b, hlast, hr⟩ | ⟨es, hq⟩⟩ := resolver_outcome initWith { s with addrValid := false }
    · obtain ⟨es, hf⟩ := frames_initWith a t
      have heff := effects_initWith a 0 s t hf
      rw [← hr] at hf heff
      exact ⟨_, probes, es, heff.scanThenFrames_of_scan he (hf.log.trans (congrArg (· ++ es) hs.log)) (.inr rfl)
        hs.events (.inr ⟨rfl, b, by rw [hlast, hf.addr]; rfl⟩), heff, init_addressesKept 0 s _⟩
    · have heff : Effects (.init 0) s (runProg (initProg 0) s) es :=
        .of_quiet hq.events (hq.bl.trans hs.bl) (hq.rs.trans hs.rs) (.inl (hq.addrValid.trans hs.addrValid))
      exact ⟨_, probes, es, heff.scanThenFrames_of_scan he (hq.log.trans (congrArg (· ++ es) hs.log)) (.inr rfl)
        hs.events (.inl hq.events), heff, init_addressesKept 0 s _⟩
  · have hr : runProg (initProg a) s = runProg (initWith a) { s with addrValid := false } := by
      rw [initProg, if_neg ha]; rfl
    obtain ⟨es, hf⟩ := frames_initWith a { s with addrValid := false }
    have heff := effects_initWith a a s _ hf
    rw [← hr] at hf heff
    exact ⟨_, [], es, heff.scanThenFrames he hf.log (by simp) (by simpa using ha), heff, init_addressesKept a s _⟩

/-- A text command shows its text, and leaves BL alone. -/
theorem progOf_of_shownText {i : Instr} {x : List Byte} (h : shownText i = some x) :
    (∃ col row, progOf i = showStringProg col row x) ∧ ∀ bl, blAfter i bl = bl := by
  cases i with
  | showString col row _ => cases h; exact ⟨⟨col, row, rfl⟩, fun _ => rfl⟩
  | showNumber col row _ => cases h; exact ⟨⟨col, row, rfl⟩, fun _ => rfl⟩
  | _ => cases h

theorem needsAddr_hasEffects {i : Instr} (hi : needsAddr i = true) (s : State) : HasEffects i s := by
  have hr : i ≠ .resolve := by rintro rfl; cases hi
  have h0 : i ≠ .init 0 := by rintro rfl; cases hi
  have hact := active_of_needsAddr hi s
  have he := exec_eq i s
  cases hv : s.addrValid with
  | false =>
    rw [if_pos ⟨hi, hv⟩] at he
    obtain ⟨es, hq⟩ := quiet_finish .notInitialized s
    have heff : Effects i s (finish .notInitialized s) es :=
      .of_quiet hq.events hq.bl hq.rs (.inl ((hact _).trans hv))
    exact ⟨_, [], es, heff.scanThenFrames he hq.log hr h0, heff, fun _ => ⟨rfl, rfl, fun _ => rfl⟩⟩
  | true =>
    rw [if_neg (by simp [hv])] at he
    cases hx : shownText i with
    | none =>
      obtain ⟨es, hf⟩ := frames_progOf hi hx s
      have heff : Effects i s (runProg (progOf i) s) es := .of_frames hf hx ((hact _).trans hv) rfl rfl
      exact ⟨_, [], es, heff.scanThenFrames he hf.log hr h0, heff,
        fun _ => ⟨hf.addr, hf.addrValid, fun _ => hf.resultAddr⟩⟩
    | some x =>
      obtain ⟨⟨col, row, hp⟩, hbl⟩ := progOf_of_shownText hx
      obtain ⟨es, ht⟩ := showString_textRun col row x s
      rw [← hp] at ht
      have heff : Effects i s (runProg (progOf i) s) es := .of_text hx ((hact _).trans hv) (hbl _) ht
      obtain ⟨haddr, hvalid, hresult⟩ := ht.addresses
      exact ⟨_, [], es, heff.scanThenFrames he ht.log hr h0, heff, fun _ => ⟨haddr, hvalid, fun _ => hresult⟩⟩

theorem hasEffects (i : Instr) (s : State) : HasEffects i s := by
  cases hi : needsAddr i with
  | true => exact needsAddr_hasEffects hi s
  | false =>
    cases i with
    | init a => exact init_hasEffects a s
    | resolve => exact resolve_hasEffects s
    | _ => cases hi

/-- Settles O43. -/
theorem addressRegistersHaveTheirWriters : Obligations.AddressRegistersHaveTheirWriters := by
  intro i s
  obtain ⟨t, probes, es, ⟨he, -⟩, -, hkept⟩ := hasEffects i s
  exact ⟨t, he, hkept⟩

/-- Settles O41: of what a command does (`hasEffects`), the part that speaks of BL. -/
theorem backlightBitIsInEveryFrame : Obligations.BacklightBitIsInEveryFrame := by
  intro i s
  obtain ⟨t, probes, es, hscan, ⟨hbl, -, hev, -⟩, -⟩ := hasEffects i s
  refine ⟨t, probes, es, hscan, fun hon hoff hinit => ?_, ?_, ?_, ?_, fun a bs r hm => ?_⟩
  · have hsame : blAfter i s.bl = s.bl := by
      cases i with
      | init a => exact absurd rfl (hinit a)
      | backlightOn => exact absurd rfl hon
      | backlightOff => exact absurd rfl hoff
      | _ => rfl
    rw [hbl, hsame, ite_self]
  · rintro rfl
    rw [hbl]; cases hv : s.addrValid <;> simp [active, blAfter, hv]
  · rintro rfl
    rw [hbl]; cases hv : s.addrValid <;> simp [active, blAfter, hv]
  · rintro a rfl
    rw [hbl]; cases hv : t.addrValid <;> simp [active, blAfter, hv]
  · obtain ⟨_, ⟨-, b, hbs, hb, -⟩, -⟩ := hev _ hm
    exact ⟨b, hbs, hb⟩

/-- Settles O42: of what a command does (`hasEffects`), the part that speaks of RS. -/
theorem registerSelectHasItsWriters : Obligations.RegisterSelectHasItsWriters := by
  intro i s
  obtain ⟨t, probes, es, hscan, ⟨-, hrs, hev, htext⟩, hkept⟩ := hasEffects i s
  refine ⟨t, probes, es, hscan, ?_, ?_, ?_, ?_, ?_, ?_, ?_, ?_⟩
  · rintro (rfl | ⟨p, rfl⟩) <;> simpa [shownText, rsAfter] using hrs
  · intro hv hn
    simpa [active_of_needsAddr hn, hv] using hrs
  · intro hv hi
    simp only [List.mem_cons, List.not_mem_nil, or_false] at hi
    rcases hi with rfl | rfl | rfl | rfl | rfl | rfl | rfl <;> simpa [active, hv, shownText, rsAfter] using hrs
  · intro hv b
    constructor <;> rintro rfl <;> simpa [active, hv, shownText, rsAfter] using hrs
  · rintro a rfl
    rw [hrs]; cases hv : t.addrValid <;> simp [active, shownText, rsAfter, hv]
  · intro hv c r
    constructor
    · rintro x rfl
      simpa [active, hv, shownText] using hrs
    · rintro n rfl
      simpa [active, hv, shownText, dec_ne_nil] using hrs
  · rintro (⟨c, r, x, rfl⟩ | ⟨c, r, n, rfl⟩) <;> exact htext rfl
  · intro hs hn a bs r hm
    have hx : shownText i = none := by
      cases i with
      | showString c r x => exact absurd rfl (hs c r x)
      | showNumber c r n => exact absurd rfl (hn c r n)
      | _ => rfl
    obtain ⟨_, ⟨-, b, hbs, -, hb⟩, hrs'⟩ := hev _ hm
    exact ⟨b, hbs, hb.trans (hrs' hx)⟩

end Sys2Proof.Machine

namespace Sys2Proof.Machine

/-! # PROOFS of the family 20_memory: which addresses the bus transactions reach

## The scan reaches the candidates in turn (20 R39, 40 R83) -/

/-- The bus transactions among `probes` go to the addresses `done`, one after the other, one to four of them to each. -/
def ProbesInTurn (done : List Addr) (probes : List PortEvent) : Prop :=
  ∃ blocks : List (Addr × Nat), blocks.map Prod.fst = done ∧ (∀ c ∈ blocks, 1 ≤ c.2 ∧ c.2 ≤ 4) ∧
    probes.filterMap PortEvent.target? = blocks.flatMap fun c => List.replicate c.2 c.1

namespace ProbesInTurn

variable {done done' : List Addr} {probes probes' : List PortEvent}

theorem nil : ProbesInTurn [] [] := ⟨[], rfl, by simp, rfl⟩

theorem append : ProbesInTurn done probes → ProbesInTurn done' probes' → ProbesInTurn (done ++ done') (probes ++ probes')
  | ⟨bs, hd, hn, ht⟩, ⟨bs', hd', hn', ht'⟩ =>
    ⟨bs ++ bs', by rw [List.map_append, hd, hd'], List.forall_mem_append.mpr ⟨hn, hn'⟩,
      by rw [List.filterMap_append, List.flatMap_append, ht, ht']⟩

/-- Reaching the first candidates in turn is the order of the scan. -/
theorem inScanOrder (h : ProbesInTurn done probes) (hd : done <+: candidates) :
    InScanOrder (probes.filterMap PortEvent.target?) := by
  obtain ⟨blocks, rfl, hn, ht⟩ := h
  obtain ⟨rest, hrest⟩ := hd
  have hzip : candidates.zip (blocks.map Prod.snd) = blocks := by
    rw [← hrest, ← List.append_nil (blocks.map Prod.snd), List.zip_append (by simp), List.zip_nil_right,
      List.append_nil]
    exact (List.zip_of_prod rfl rfl).symm
  have hlen : (blocks.map Prod.fst).length ≤ candidates.length := hrest ▸ (List.prefix_append _ rest).length_le
  refine ⟨blocks.map Prod.snd, by simpa [candidates] using hlen, ?_, by rw [hzip, ht]⟩
  simpa using fun n a hc => hn (a, n) hc

end ProbesInTurn

/-- The transactions of a probe all go to its candidate, and each takes an answer. -/
theorem targets_of_probeEvents {p : Params} {a : Addr} {es : List PortEvent} (h : ∀ e ∈ es, ProbeEvent p a e) :
    es.filterMap PortEvent.target? = List.replicate es.length a ∧
      es.length = (es.filterMap PortEvent.writeAnswer?).length + (es.filterMap PortEvent.readAnswer?).length := by
  induction es with
  | nil => exact ⟨rfl, rfl⟩
  | cons e es ih =>
    obtain ⟨he, hes⟩ := List.forall_mem_cons.mp h
    obtain ⟨ht, hl⟩ := ih hes
    rcases he with ⟨r, rfl⟩ | ⟨r, rfl⟩ | ⟨r, rfl⟩ <;>
      exact ⟨by simp [PortEvent.target?, ht, List.replicate_succ],
        by simp [List.filterMap_cons, PortEvent.writeAnswer?, PortEvent.readAnswer?]; omega⟩

/-- A probe whose first write is answered makes a transaction. -/
theorem probe_log_grows {s : State} (hw : s.writeAnswers ≠ []) :
    s.log.length < (probeFrom .writeOnes s).state.log.length := by
  suffices ∃ e es, Follows s (e :: es) (probeWriteOnes s).state by
    obtain ⟨e, es, hes⟩ := this
    simp [probeFrom, hes.log]
  unfold probeWriteOnes
  rcases memWrite_cases s.cand (onesProbe s.params) s with ⟨hw', -⟩ | ⟨rest, hr, h⟩ | ⟨rest, hr, h⟩
  · exact absurd hw' hw
  · obtain ⟨es, hes, -⟩ := probeReadFirst_transacts
      (emit (.write s.cand (onesProbe s.params) .ok) { s with writeAnswers := rest })
    rw [h]
    exact ⟨_, es, (Follows.write s.cand _ hr).trans hes⟩
  · rw [h, probeError_state]
    exact ⟨_, [], Follows.write s.cand _ hr⟩

/-- An answered probe reaches its candidate with one to four transactions (40 R80, R85). -/
theorem probesInTurn_probe {s : State} {es : List PortEvent} (hw : s.writeAnswers ≠ [])
    (hl : (probeFrom .writeOnes s).state.log = s.log ++ es) : ProbesInTurn [s.cand] es := by
  obtain ⟨es', hes, hev, hws, hrs, -⟩ := probeFrom_probed .writeOnes s
  obtain rfl : es = es' := List.append_cancel_left (hl.symm.trans hes.log)
  obtain ⟨ht, hlen⟩ := targets_of_probeEvents hev
  have hpos := probe_log_grows hw
  rw [hl, List.length_append] at hpos
  exact ⟨[(s.cand, es.length)], rfl, by simp; omega, by simpa using ht⟩

/-- The run to `r` starts with a scan of `as` from `s`, in turn: it ends with the readback of an address `a` and goes on
with `found a`, or it probes all of `as` and goes on with `k`, or it stops, the command ending or the bridge waiting. -/
def ScansInTurn (found : Addr → Prog) (k : Prog) (as : List Addr) (s r : State) : Prop :=
  ∃ probes t done, Scanned s probes t ∧ ProbesInTurn done probes ∧ done <+: as ∧
    ((∃ a b, probes.getLast? = some (.read a (.ok b)) ∧ r = runProg (found a) t) ∨ (done = as ∧ r = runProg k t) ∨
      r = finish .transportError t ∨ ∃ q, r = waitAt q t)

/-- Setting CAND and WIN is part of a scan. -/
theorem scanned_setCursor (a : Addr) (w : Window) (s : State) : Scanned s [] { s with cand := a, win := w } :=
  ⟨by simp, rfl, rfl, rfl, rfl, rfl, rfl, by simp⟩

section
variable (found : Addr → Prog) (k : Prog) (s : State)

theorem scansInTurn_setWindow (w : Window) : ScansInTurn found k [] s (runProg (.set (.win w) k) s) :=
  ⟨[], _, [], scanned_setCursor s.cand w s, .nil, List.nil_prefix, .inr (.inl ⟨rfl, rfl⟩)⟩

theorem scansInTurn_probe {a : Addr} (ha : a ∈ candidates) :
    ScansInTurn found k [a] s (runProg (.set (.cand a) (.probe .writeOnes (found a) k)) s) := by
  rw [runProg_set, runProg, apply_cand]
  by_cases hw : s.writeAnswers = []
  · rw [probeFrom_unanswered (s := { s with cand := a }) (p := .writeOnes) hw]
    exact ⟨[], _, [], scanned_setCursor a s.win s, .nil, List.nil_prefix, .inr (.inr (.inr ⟨_, rfl⟩))⟩
  · obtain ⟨es, hes, hacc⟩ := scanned_probe ha s
    have hturn : ProbesInTurn [a] es := probesInTurn_probe (s := { s with cand := a }) hw hes.log
    refine ⟨es, _, [a], hes, hturn, List.prefix_rfl, ?_⟩
    generalize probeFrom .writeOnes { s with cand := a } = res at hacc ⊢
    cases res with
    | accept t =>
      obtain ⟨b, hb⟩ := hacc t rfl
      exact .inl ⟨a, b, hb, rfl⟩
    | reject t => exact .inr (.inl ⟨rfl, rfl⟩)
    | raised t => exact .inr (.inr (.inl rfl))
    | wait q t => exact .inr (.inr (.inr ⟨_, rfl⟩))

end

/-- Where a scan goes on with another one, the two are one scan. -/
theorem ScansInTurn.andThen {found : Addr → Prog} {k k' : Prog} {as bs : List Addr} {s r : State}
    (h : ScansInTurn found k as s r) (hk : ∀ t, ScansInTurn found k' bs t (runProg k t)) :
    ScansInTurn found k' (as ++ bs) s r := by
  obtain ⟨ps, t, done, hs, hp, hd, hf | ⟨rfl, rfl⟩ | hstop⟩ := h
  · exact ⟨ps, t, done, hs, hp, hd.trans (List.prefix_append as bs), .inl hf⟩
  · obtain ⟨qs, u, done', hs', hq, hd', ho⟩ := hk t
    refine ⟨ps ++ qs, u, done ++ done', hs.trans hs', hp.append hq, (List.prefix_append_right_inj done).mpr hd', ?_⟩
    rcases ho with ⟨a, b, hl, hr⟩ | ⟨rfl, hr⟩ | hstop
    · exact .inl ⟨a, b, by rw [List.getLast?_append, hl]; rfl, hr⟩
    · exact .inr (.inl ⟨rfl, hr⟩)
    · exact .inr (.inr hstop)
  · exact ⟨ps, t, done, hs, hp, hd.trans (List.prefix_append as bs), .inr (.inr hstop)⟩

theorem scan_inTurn (found : Addr → Prog) (k : Prog) {as : List Addr} (has : as ⊆ candidates) (s : State) :
    ScansInTurn found k as s (runProg (scan found as k) s) := by
  induction as generalizing s with
  | nil => exact ⟨[], s, [], scanned_setCursor s.cand s.win s, .nil, List.nil_prefix, .inr (.inl ⟨rfl, rfl⟩)⟩
  | cons a as ih =>
    obtain ⟨ha, has⟩ := List.cons_subset.mp has
    exact (scansInTurn_probe found _ s ha).andThen (ih has)

/-- The two windows are one scan of all candidates (40 R83). -/
theorem resolver_inTurn (found : Addr → Prog) (k : Prog) (s : State) :
    ScansInTurn found k candidates s (runProg (resolver found k) s) :=
  (scansInTurn_setWindow found _ s .a).andThen fun s => (scan_inTurn found _ (as := windowA) (by decide) s).andThen
    fun s => (scansInTurn_setWindow found _ s .b).andThen fun s => scan_inTurn found k (as := windowB) (by decide) s

/-- After the scan of the resolver, in its order, the command goes on with the address it found, or it ends or waits. -/
theorem resolver_outcome_inTurn (found : Addr → Prog) (s : State) :
    ∃ probes t, Scanned s probes t ∧ InScanOrder (probes.filterMap PortEvent.target?) ∧
      ((∃ a b, probes.getLast? = some (.read a (.ok b)) ∧
          runProg (resolver found addressNotFound) s = runProg (found a) t) ∨
        ∃ es, Quiet t (runProg (resolver found addressNotFound) s) es) := by
  obtain ⟨probes, t, done, hs, hp, hd, ho⟩ := resolver_inTurn found addressNotFound s
  refine ⟨probes, t, hs, hp.inScanOrder hd, ?_⟩
  rcases ho with hf | ⟨-, hk⟩ | hstop | ⟨q, hw⟩
  · exact .inl hf
  · exact .inr (hk ▸ quiet_resultAddr 0 .addressNotFound t)
  · exact .inr (hstop ▸ quiet_finish _ t)
  · exact .inr ⟨[], hw ▸ quiet_waitAt q t⟩

/-! ## What the commands reach -/

/-- What executing a command comes to, its probes in the order of the scan. -/
def EffectsInTurn (i : Instr) (s : State) : Prop :=
  ∃ t probes es, ScanThenFrames i s t probes es ∧ Effects i s t es ∧ InScanOrder (probes.filterMap PortEvent.target?)

/-- A command that sends no frame after its scan. -/
theorem effectsInTurn_of_quiet {i : Instr} {s t r : State} {v : Bool} {probes es : List PortEvent}
    (hi : i = .resolve ∨ i = .init 0) (he : exec i s = .next r) (hs : Scanned { s with addrValid := v } probes t)
    (hturn : InScanOrder (probes.filterMap PortEvent.target?)) (hq : Quiet t r es)
    (hact : active i s r = false ∨ i = .resolve) : EffectsInTurn i s := by
  have heff : Effects i s r es := .of_quiet hq.events (hq.bl.trans hs.bl) (hq.rs.trans hs.rs) hact
  exact ⟨r, probes, es, heff.scanThenFrames_of_scan he (hq.log.trans (congrArg (· ++ es) hs.log)) hi hs.events
    (.inl hq.events), heff, hturn⟩

theorem resolve_effectsInTurn (s : State) : EffectsInTurn .resolve s := by
  obtain ⟨probes, t, hs, hturn, ho⟩ := resolver_outcome_inTurn (fun a => .set (.resultAddr a) (.complete .ok)) s
  obtain ⟨es, hq⟩ : ∃ es, Quiet t (runProg resolveProg s) es := by
    rcases ho with ⟨a, b, -, hr⟩ | hq
    · exact hr ▸ quiet_resultAddr a .ok t
    · exact hq
  exact effectsInTurn_of_quiet (.inl rfl) (exec_eq _ s) hs hturn hq (.inr rfl)

/-- INIT 0 sends its frames to the candidate last read back (42 R100). -/
theorem initZero_effectsInTurn (s : State) : EffectsInTurn (.init 0) s := by
  have he : exec (.init 0) s = .next (runProg (initProg 0) s) := exec_eq _ s
  obtain ⟨probes, t, hs, hturn, ⟨a, b, hlast, hr⟩ | ⟨es, hq⟩⟩ :=
    resolver_outcome_inTurn initWith { s with addrValid := false }
  · obtain ⟨es, hf⟩ := frames_initWith a t
    have heff := effects_initWith a 0 s t hf
    rw [← hr] at hf heff
    exact ⟨_, probes, es, heff.scanThenFrames_of_scan he (hf.log.trans (congrArg (· ++ es) hs.log)) (.inr rfl)
      hs.events (.inr ⟨rfl, b, by rw [hlast, hf.addr]; rfl⟩), heff, hturn⟩
  · exact effectsInTurn_of_quiet (.inr rfl) he hs hturn hq (.inl (hq.addrValid.trans hs.addrValid))

theorem effectsInTurn (i : Instr) (s : State) : EffectsInTurn i s := by
  by_cases hr : i = .resolve
  · exact hr ▸ resolve_effectsInTurn s
  by_cases h0 : i = .init 0
  · exact h0 ▸ initZero_effectsInTurn s
  obtain ⟨t, probes, es, hscan, heff, -⟩ := hasEffects i s
  have ⟨_, _, hnone, _⟩ := hscan
  obtain rfl := hnone hr h0
  exact ⟨t, [], es, hscan, heff, ProbesInTurn.nil.inScanOrder List.nil_prefix⟩

/-- A command that needs ADDR leaves it as it was. -/
theorem addr_of_needsAddr {i : Instr} {s t : State} (hi : needsAddr i = true) (he : exec i s = .next t) :
    t.addr = s.addr := by
  obtain ⟨u, -, -, ⟨hu, -⟩, -, hkept⟩ := hasEffects i s
  obtain rfl : u = t := Host.Outcome.next.inj (hu.symm.trans he)
  exact (hkept fun a => by rintro rfl; cases hi).1

/-- INIT with a nonzero operand leaves it in ADDR (42 R100). -/
theorem addr_of_init {a : Addr} {s t : State} (ha : a ≠ 0) (he : exec (.init a) s = .next t) : t.addr = a := by
  have hrun : exec (.init a) s = .next (runProg (initProg a) s) := exec_eq _ s
  obtain rfl : runProg (initProg a) s = t := Host.Outcome.next.inj (hrun.symm.trans he)
  obtain ⟨es, hf⟩ := frames_initWith a { s with addrValid := false }
  rw [initProg, if_neg ha]
  exact hf.addr

/-- Settles O40: the probes come in the order of the scan (`effectsInTurn`), the frames go to ADDR (`Effects.events`). -/
theorem transactionsGoWhereTheRulesSay : Obligations.TransactionsGoWhereTheRulesSay := by
  intro i s
  obtain ⟨t, probes, es, hscan, heff, hturn⟩ := effectsInTurn i s
  have ⟨he, _⟩ := hscan
  refine ⟨t, probes, es, hscan, hturn, fun a bs r hm => ?_, fun hi => addr_of_needsAddr hi he, ?_⟩
  · obtain ⟨_, ⟨ha, b, rfl, -⟩, -⟩ := heff.events _ hm
    exact ⟨ha, rfl⟩
  · rintro a ha rfl
    exact addr_of_init ha he

end Sys2Proof.Machine

namespace Sys2Proof.Machine

/-! # PROOFS of the family 30_encoding: decoder and encoder, the command port, frames, probes, responses, the assembler

## A command word and its fields (30 R57) -/

/-- A word is made of its four fields (R57). -/
theorem mkWord_fields (w : Word) : mkWord (fieldOp w) (fieldA w) (fieldB w) (fieldL w) = w := by
  apply BitVec.eq_of_getLsbD_eq
  intro i hi
  simp only [mkWord, fieldOp, fieldA, fieldB, fieldL, BitVec.getLsbD_append, BitVec.getLsbD_extractLsb']
  split_ifs <;> grind

/-- Two words are equal when their fields are (R57). -/
theorem word_eq_iff_fields (v w : Word) :
    v = w ↔ fieldOp v = fieldOp w ∧ fieldA v = fieldA w ∧ fieldB v = fieldB w ∧ fieldL v = fieldL w := by
  refine ⟨fun h => by simp [h], fun ⟨ho, ha, hb, hl⟩ => ?_⟩
  rw [← mkWord_fields v, ho, ha, hb, hl, mkWord_fields]

theorem fieldOp_and (v w : Word) : fieldOp (v &&& w) = fieldOp v &&& fieldOp w := BitVec.extractLsb'_and

theorem fieldA_and (v w : Word) : fieldA (v &&& w) = fieldA v &&& fieldA w := BitVec.extractLsb'_and

theorem fieldB_and (v w : Word) : fieldB (v &&& w) = fieldB v &&& fieldB w := BitVec.extractLsb'_and

theorem fieldL_and (v w : Word) : fieldL (v &&& w) = fieldL v &&& fieldL w := BitVec.extractLsb'_and

/-- The match of an opcode's row (R59) is the opcode with every other field zero. -/
theorem setWidth_eq_mkWord (op : BitVec 4) : op.setWidth 32 = mkWord op 0 0 0 := by
  revert op; decide

/-- A row's mask covers the opcode and, of each other field, the bits that must be zero (R59). -/
theorem and_mkWord_eq_iff (w : Word) (a b : Byte) (l : BitVec 12) :
    w &&& mkWord 0xF a b l = (fieldOp w).setWidth 32 ↔
      fieldA w &&& a = 0 ∧ fieldB w &&& b = 0 ∧ fieldL w &&& l = 0 := by
  have hop : fieldOp w &&& 0xF#4 = fieldOp w := BitVec.and_allOnes
  rw [word_eq_iff_fields, setWidth_eq_mkWord, fieldOp_and, fieldA_and, fieldB_and, fieldL_and]
  simp [hop]

/-! ## Legality (30 R59, R65, R66) -/

/-- The high bit of field A lies outside INIT's address operand (R58, R59). -/
theorem and_highBit_eq_zero_iff (a : Byte) : a &&& 0x80#8 = 0 ↔ a.toNat < 128 := by
  revert a; decide

section
variable (w : Word)

theorem and_initMask_eq_iff :
    w &&& 0xFFFFF80F#32 = (fieldOp w).setWidth 32 ↔ (fieldA w).toNat < 128 ∧ fieldB w = 0 ∧ fieldL w = 0 := by
  rw [show 0xFFFFF80F#32 = mkWord 0xF 0x80#8 (.allOnes 8) (.allOnes 12) from rfl, and_mkWord_eq_iff, BitVec.and_allOnes,
    BitVec.and_allOnes, and_highBit_eq_zero_iff]

theorem and_stringMask_eq : w &&& 0x0000000F#32 = (fieldOp w).setWidth 32 :=
  (and_mkWord_eq_iff w 0 0 0).mpr ⟨BitVec.and_zero, BitVec.and_zero, BitVec.and_zero⟩

theorem and_numberMask_eq_iff : w &&& 0xFFF0000F#32 = (fieldOp w).setWidth 32 ↔ fieldL w = 0 := by
  rw [show 0xFFF0000F#32 = mkWord 0xF 0 0 (.allOnes 12) from rfl, and_mkWord_eq_iff, BitVec.and_allOnes]
  simp

theorem and_byteMask_eq_iff :
    w &&& 0xFFFFF00F#32 = (fieldOp w).setWidth 32 ↔ fieldB w = 0 ∧ fieldL w = 0 := by
  rw [show 0xFFFFF00F#32 = mkWord 0xF 0 (.allOnes 8) (.allOnes 12) from rfl, and_mkWord_eq_iff, BitVec.and_allOnes,
    BitVec.and_allOnes]
  simp

theorem and_bareMask_eq_iff :
    w &&& 0xFFFFFFFF#32 = (fieldOp w).setWidth 32 ↔ fieldA w = 0 ∧ fieldB w = 0 ∧ fieldL w = 0 := by
  rw [show 0xFFFFFFFF#32 = mkWord 0xF (.allOnes 8) (.allOnes 8) (.allOnes 12) from rfl, and_mkWord_eq_iff,
    BitVec.and_allOnes, BitVec.and_allOnes, BitVec.and_allOnes]

end

/-- The decoder's legality check wants the fields zero that R59 wants zero: one case per opcode, with its row's mask
(R59, R65). -/
theorem wordLegality_eq_none_iff (w : Word) : wordLegality w = none ↔ illegalByFields w = false := by
  have hlt := (fieldOp w).isLt
  rw [wordLegality, illegalByFields]
  generalize hn : (fieldOp w).toNat = n at hlt ⊢
  interval_cases n <;>
    simp [opMask, and_initMask_eq_iff, and_stringMask_eq, and_numberMask_eq_iff, and_bareMask_eq_iff,
      and_byteMask_eq_iff, and_assoc]

/-- A legal command word with enough operand words is decoded by its fields (R58, R66). -/
theorem decodeCommand_of_legal {w : Word} {ops : List Word} (h : illegalByFields w = false)
    (hops : operandWords w ≤ ops.length) : decodeCommand w ops = instrOf w ops := by
  rw [decodeCommand, (wordLegality_eq_none_iff w).mpr h]
  exact if_neg hops.not_gt

/-- Only a legal command word with enough operand words is decoded (R65, R66). -/
theorem legal_of_decodeCommand {w : Word} {ops : List Word} {i : Instr} (h : decodeCommand w ops = .instr i) :
    illegalByFields w = false := by
  rw [← wordLegality_eq_none_iff]
  unfold decodeCommand at h
  cases hw : wordLegality w with
  | none => rfl
  | some r => simp [hw] at h

/-! ## The rows of the table: their legal words, and what these decode to (30 R58, R59) -/

/-- The commands whose one operand is field A (R58). -/
def byteRows : List (BitVec 4 × (Byte → Instr)) := [(0xB, .sendCommand), (0xC, .sendData), (0xD, .sendNibble)]

/-- The commands without operands (R58). -/
def bareRows : List (BitVec 4 × Instr) :=
  [(0x4, .displayOn), (0x5, .displayOff), (0x6, .clear), (0x7, .backlightOn), (0x8, .backlightOff), (0x9, .scrollLeft),
   (0xA, .scrollRight), (0xE, .resolve)]

theorem opcode_cases (op : BitVec 4) :
    op = 0x0 ∨ op = 0xF ∨ op = 0x1 ∨ op = 0x2 ∨ op = 0x3 ∨ op ∈ byteRows.map Prod.fst ∨ op ∈ bareRows.map Prod.fst := by
  revert op; decide

section
variable (a b : Byte) (l : BitVec 12) (ops : List Word)

theorem illegalByFields_byteRow :
    ∀ r ∈ byteRows, illegalByFields (mkWord r.1 a b l) = (decide (b ≠ 0) || decide (l ≠ 0)) := by
  simp [byteRows, illegalByFields]

theorem illegalByFields_bareRow :
    ∀ r ∈ bareRows, illegalByFields (mkWord r.1 a b l) = (decide (a ≠ 0) || decide (b ≠ 0) || decide (l ≠ 0)) := by
  simp [bareRows, illegalByFields]

theorem operandWords_byteRow : ∀ r ∈ byteRows, operandWords (mkWord r.1 a 0 0) = 0 := by
  simp [byteRows, operandWords_mkWord]

theorem operandWords_bareRow : ∀ r ∈ bareRows, operandWords (mkWord r.1 0 0 0) = 0 := by
  simp [bareRows, operandWords_mkWord]

theorem encode_byteRow : ∀ r ∈ byteRows, (r.2 a).wf = true ∧ encode (r.2 a) = [mkWord r.1 a 0 0] := by
  simp [byteRows, Instr.wf, encode]

theorem encode_bareRow : ∀ r ∈ bareRows, r.2.wf = true ∧ encode r.2 = [mkWord r.1 0 0 0] := by
  simp [bareRows, Instr.wf, encode]

theorem decodeCommand_init (v : Addr) : decodeCommand (mkWord 0x1 (v.setWidth 8) 0 0) ops = .instr (.init v) := by
  have hv : v.toNat % 256 = v.toNat := by omega
  rw [decodeCommand_of_legal (by simp [illegalByFields, hv]; omega) (by simp [operandWords_mkWord])]
  simp [instrOf, fieldAddr_eq]

theorem decodeCommand_showString (h : ops.length = (l.toNat + 3) / 4) :
    decodeCommand (mkWord 0x2 a b l) ops = .instr (.showString a b (textOf l.toNat ops)) := by
  rw [decodeCommand_of_legal (by simp [illegalByFields]) (by simp [operandWords_mkWord, h])]
  simp [instrOf]

theorem decodeCommand_showNumber (h : ops.length = 1) :
    decodeCommand (mkWord 0x3 a b 0) ops = .instr (.showNumber a b (ops.headD 0)) := by
  rw [decodeCommand_of_legal (by simp [illegalByFields]) (by simp [operandWords_mkWord, h])]
  simp [instrOf]

theorem decodeCommand_byteRow (r) (h : r ∈ byteRows) : decodeCommand (mkWord r.1 a 0 0) ops = .instr (r.2 a) := by
  rw [decodeCommand_of_legal (by simp [illegalByFields_byteRow _ _ _ r h])
    ((operandWords_byteRow a r h).trans_le (Nat.zero_le _))]
  revert r
  simp [byteRows, instrOf]

theorem decodeCommand_bareRow (r) (h : r ∈ bareRows) : decodeCommand (mkWord r.1 0 0 0) ops = .instr r.2 := by
  rw [decodeCommand_of_legal (by simp [illegalByFields_bareRow _ _ _ r h])
    ((operandWords_bareRow r h).trans_le (Nat.zero_le _))]
  revert r
  simp [bareRows, instrOf]

end

/-- The legal words, row by row (R59). -/
theorem legal_cases {w : Word} (h : illegalByFields w = false) :
    (∃ v : Addr, w = mkWord 0x1 (v.setWidth 8) 0 0) ∨ (∃ a b l, w = mkWord 0x2 a b l) ∨
    (∃ a b, w = mkWord 0x3 a b 0) ∨ (∃ r ∈ byteRows, ∃ a, w = mkWord r.1 a 0 0) ∨
    ∃ r ∈ bareRows, w = mkWord r.1 0 0 0 := by
  obtain ⟨op, a, b, l, rfl⟩ : ∃ op a b l, w = mkWord op a b l := ⟨_, _, _, _, (mkWord_fields w).symm⟩
  rcases opcode_cases op with rfl | rfl | rfl | rfl | rfl | hop | hop
  · simp [illegalByFields] at h
  · simp [illegalByFields] at h
  · obtain ⟨⟨ha, rfl⟩, rfl⟩ : (a.toNat < 128 ∧ b = 0) ∧ l = 0 := by simpa [illegalByFields] using h
    have hv : (a.setWidth 7).setWidth 8 = a := BitVec.eq_of_toNat_eq (by simp; omega)
    exact .inl ⟨a.setWidth 7, by rw [hv]⟩
  · exact .inr (.inl ⟨a, b, l, rfl⟩)
  · obtain rfl : l = 0 := by simpa [illegalByFields] using h
    exact .inr (.inr (.inl ⟨a, b, rfl⟩))
  · obtain ⟨r, hr, rfl⟩ := List.mem_map.mp hop
    obtain ⟨rfl, rfl⟩ : b = 0 ∧ l = 0 := by simpa [illegalByFields_byteRow _ _ _ r hr] using h
    exact .inr (.inr (.inr (.inl ⟨r, hr, a, rfl⟩)))
  · obtain ⟨r, hr, rfl⟩ := List.mem_map.mp hop
    obtain ⟨⟨rfl, rfl⟩, rfl⟩ : (a = 0 ∧ b = 0) ∧ l = 0 := by simpa [illegalByFields_bareRow _ _ _ r hr] using h
    exact .inr (.inr (.inr (.inr ⟨r, hr, rfl⟩)))

/-! ## Decoding and encoding (30 R57 to R66) -/

theorem payloadBytes_length (ops : List Word) : (payloadBytes ops).length = 4 * ops.length := by
  induction ops with
  | nil => rfl
  | cons w ws ih => simp [payloadBytes, wordBytes, ih]; omega

/-- Every byte count `L` is found in `ceil(L/4)` operand words (R62). -/
theorem textOf_length {n : Nat} {ops : List Word} (h : ops.length = (n + 3) / 4) : (textOf n ops).length = n := by
  rw [textOf, List.length_take, payloadBytes_length]
  omega

/-- The bytes of a packed text begin with the text (R62). -/
theorem textOf_packText (t : List Byte) : textOf t.length (packText t) = t := by
  induction t using packText.induct with
  | case1 => rfl
  | case2 a => simp [textOf, packText, payloadBytes]
  | case3 a b => simp [textOf, packText, payloadBytes]
  | case4 a b c => simp [textOf, packText, payloadBytes]
  | case5 a b c d rest ih =>
    rw [textOf] at ih
    simp [textOf, packText, payloadBytes, ih]

/-- A whole command is taken from the front of the words (R64). -/
theorem decode_append {w : Word} {ops : List Word} (h : ops.length = operandWords w) (rest : List Word) :
    decode (w :: (ops ++ rest)) = (decodeCommand w ops, rest) := by
  rw [decode, ← h, List.take_left, List.drop_left]

/-- The command's encoding is a command word and its operand words, which decode to it (R57 to R64). -/
def RoundTrips (i : Instr) : Prop :=
  ∃ w ops, encode i = w :: ops ∧ ops.length = operandWords w ∧ decodeCommand w ops = .instr i

theorem byteRow_roundTrips {f : Byte → Instr} (h : f ∈ byteRows.map Prod.snd) (a : Byte) : RoundTrips (f a) := by
  obtain ⟨r, hr, rfl⟩ := List.mem_map.mp h
  exact ⟨_, [], (encode_byteRow a r hr).2, (operandWords_byteRow a r hr).symm, decodeCommand_byteRow a [] r hr⟩

theorem bareRow_roundTrips {i : Instr} (h : i ∈ bareRows.map Prod.snd) : RoundTrips i := by
  obtain ⟨r, hr, rfl⟩ := List.mem_map.mp h
  exact ⟨_, [], (encode_bareRow r hr).2, (operandWords_bareRow r hr).symm, decodeCommand_bareRow [] r hr⟩

/-- Every well-formed command is read back; a text because L holds its length (R57, R62). -/
theorem roundTrips_of_wf {i : Instr} (h : i.wf = true) : RoundTrips i := by
  cases i with
  | init a => exact ⟨_, _, rfl, by simp [operandWords_mkWord], decodeCommand_init _ a⟩
  | showString col row text =>
    have hl : text.length % 4096 = text.length := Nat.mod_eq_of_lt (Nat.lt_succ_of_le (of_decide_eq_true h))
    have hn : (BitVec.ofNat 12 text.length).toNat = text.length := by simpa using hl
    have hp := packText_length text
    refine ⟨_, _, rfl, by simp [operandWords_mkWord, hl, hp], ?_⟩
    rw [decodeCommand_showString _ _ _ _ (by rw [hn, hp]), hn, textOf_packText]
  | showNumber col row n => exact ⟨_, _, rfl, by simp [operandWords_mkWord], decodeCommand_showNumber col row [n] rfl⟩
  | sendCommand b | sendData b | sendNibble b => exact byteRow_roundTrips (by simp [byteRows]) b
  | displayOn | displayOff | clear | backlightOn | backlightOff | scrollLeft | scrollRight | resolve =>
    exact bareRow_roundTrips (by decide)

/-- Settles O12, row by row of the table (`roundTrips_of_wf`). -/
theorem decodeOfEncodeIsTheCommand : Obligations.DecodeOfEncodeIsTheCommand := by
  intro i rest h
  obtain ⟨w, ops, he, hn, hd⟩ := roundTrips_of_wf h
  rw [he, List.cons_append, decode_append hn, hd]

/-- A legal word with its operand words decodes, to a well-formed command that has this word again (R58, R66). -/
theorem exists_decoded {w : Word} {ops : List Word} (h : illegalByFields w = false) (hn : ops.length = operandWords w) :
    ∃ i, decodeCommand w ops = .instr i ∧ i.wf = true ∧ (encode i).head? = some w := by
  rcases legal_cases h with ⟨v, rfl⟩ | ⟨a, b, l, rfl⟩ | ⟨a, b, rfl⟩ | ⟨r, hr, a, rfl⟩ | ⟨r, hr, rfl⟩
  · exact ⟨_, decodeCommand_init ops v, rfl, rfl⟩
  · have hl : ops.length = (l.toNat + 3) / 4 := by simpa [operandWords_mkWord] using hn
    have ht := textOf_length hl
    refine ⟨_, decodeCommand_showString a b l ops hl, decide_eq_true ?_, by simp [encode, ht]⟩
    rw [ht, maxTextLen]
    omega
  · exact ⟨_, decodeCommand_showNumber a b ops (by simpa [operandWords_mkWord] using hn), rfl, rfl⟩
  · obtain ⟨hwf, he⟩ := encode_byteRow a r hr
    exact ⟨_, decodeCommand_byteRow a ops r hr, hwf, by rw [he]; rfl⟩
  · obtain ⟨hwf, he⟩ := encode_bareRow r hr
    exact ⟨_, decodeCommand_bareRow ops r hr, hwf, by rw [he]; rfl⟩

/-- Settles O13: the command has the word again (`exists_decoded`), and its encoding is read back
(`roundTrips_of_wf`). -/
theorem encodeGivesTheCommandWordBack : Obligations.EncodeGivesTheCommandWordBack := by
  intro w ops i hn hd
  obtain ⟨j, hj, hwf, hw⟩ := exists_decoded (legal_of_decodeCommand hd) hn
  obtain rfl := Decoded.instr.inj (hj.symm.trans hd)
  obtain ⟨w', ops', he, hn', hd'⟩ := roundTrips_of_wf hwf
  obtain rfl : w' = w := by simpa [he] using hw
  exact ⟨hwf, ops', he, hn', hd'⟩

/-- A command word with its operand words is decoded exactly when it is legal: the operands play no part (R66). -/
theorem decodes_iff_legal {w : Word} {ops : List Word} (hn : ops.length = operandWords w) :
    (∃ i, decodeCommand w ops = .instr i) ↔ illegalByFields w = false :=
  ⟨fun ⟨_, hi⟩ => legal_of_decodeCommand hi, fun h => (exists_decoded h hn).imp fun _ hi => hi.1⟩

/-- The row of an opcode, from `opMask` (R59). -/
theorem row_of_opMask {op : BitVec 4} {m : Word} (h : opMask op.toNat = some m) : (op.setWidth 32, m) ∈ tableRows := by
  rw [← BitVec.ofNat_toNat]
  revert h
  generalize op.toNat = n
  unfold opMask
  split <;> rintro ⟨⟩ <;> simp [tableRows]

/-- Every row is that of its opcode, which its mask covers (R59). -/
theorem opMask_of_row : ∀ r ∈ tableRows,
    opMask (fieldOp r.1).toNat = some r.2 ∧ (fieldOp r.1).setWidth 32 = r.1 ∧ fieldOp r.2 = .allOnes 4 := by
  simp [tableRows, opMask, fieldOp]

/-- The decoder's legality check is the search for a row (R59, R66). -/
theorem wordLegality_eq_none_iff_row (w : Word) : wordLegality w = none ↔ ∃ r ∈ tableRows, w &&& r.2 = r.1 := by
  unfold wordLegality
  constructor
  · cases hm : opMask (fieldOp w).toNat with
    | none => simp
    | some m => exact fun h => ⟨_, row_of_opMask hm, by simpa using h⟩
  · rintro ⟨r, hr, hw⟩
    obtain ⟨hm, hmatch, hcover⟩ := opMask_of_row r hr
    have hop : fieldOp r.1 = fieldOp w := by rw [← hw, fieldOp_and, hcover, BitVec.and_allOnes]
    rw [hop] at hm hmatch
    simp [hm, hw, hmatch]

/-- Settles O14, from the reading by fields (`decodes_iff_legal`) and the reading by rows
(`wordLegality_eq_none_iff_row`). -/
theorem legalWordsAreTheRowsOfTheTable : Obligations.LegalWordsAreTheRowsOfTheTable := fun w _ hn =>
  ⟨by rw [decodes_iff_legal hn, ← wordLegality_eq_none_iff, wordLegality_eq_none_iff_row], decodes_iff_legal hn⟩

/-- Settles O15, by running the decoder. -/
theorem writtenOutWordsDecode : Obligations.WrittenOutWordsDecode := by
  refine ⟨?_, ?_, ?_, ?_, ?_, ?_⟩ <;> decide

/-! ## The command port (30 R64, R75) -/

/-- Words are offered up to the end of the command: they are taken, and the command begins (R75). -/
theorem fetchOperands_whole {s : State} {ops rest : List Word} (hw : s.hostWords = ops ++ rest)
    (hn : (s.opnd ++ ops).length = operandWords s.cmd) :
    fetchOperands s = .command (latched s.cmd (s.opnd ++ ops) rest s) := by
  rw [List.length_append] at hn
  have hm : operandsMissing s = ops.length := by rw [operandsMissing]; omega
  have hl : latchOperands s = { s with opnd := s.opnd ++ ops, hostWords := rest } := by
    rw [latchOperands, hm, hw, List.take_left, List.drop_left]
  have h0 : operandsMissing (latchOperands s) = 0 := by simp [hl, operandsMissing, hn]
  rw [fetchOperands, if_pos h0, hl]
  rfl

/-- Fewer words are offered than are missing: all are taken, and the bridge goes on waiting (R75). -/
theorem fetchOperands_partial {s : State} (hn : (s.opnd ++ s.hostWords).length < operandWords s.cmd) :
    fetchOperands s = .notYet { s with opnd := s.opnd ++ s.hostWords, hostWords := [] } := by
  rw [List.length_append] at hn
  have hm : s.hostWords.length ≤ operandsMissing s := by rw [operandsMissing]; omega
  have hl : latchOperands s = { s with opnd := s.opnd ++ s.hostWords, hostWords := [] } := by
    rw [latchOperands, List.take_of_length_le hm, List.drop_of_length_le hm]
  have h0 : operandsMissing (latchOperands s) ≠ 0 := by simp [hl, operandsMissing]; omega
  rw [fetchOperands, if_neg h0, hl]

theorem fetch_of_accepting {s : State} (h : s.accepting = true) : fetch s = fetchOperands s := by
  rw [fetch, if_pos h]

theorem fetch_of_word {s : State} {w : Word} {rest : List Word} (h : s.accepting = false)
    (hw : s.hostWords = w :: rest) : fetch s = fetchOperands (latchCommand w rest s) := by
  simp [fetch, h, hw]

section
variable {s t : State} (hr : s.resetPin = false) (hs : s.seq = .idle)
include hr hs

theorem step_of_notYet (hf : fetch s = .notYet t) : step s = .next t := by
  simp [step, hr, hs, hf]

theorem step_of_command {i : Instr} (hf : fetch s = .command t) (hd : decodeCommand t.cmd t.opnd = .instr i) :
    step s = exec i t := by
  simp [step, hr, hs, hf, execLatched, hd]

end

/-- Settles O7: the words taken are kept, in one step or over several (`fetchOperands_partial`). -/
theorem operandWordsAreAwaited : Obligations.OperandWordsAreAwaited := by
  constructor
  · rintro s w ops ⟨hr, hs, ha⟩ hw hn
    exact step_of_notYet hr hs ((fetch_of_word ha hw).trans (fetchOperands_partial hn))
  · intro s hr hs ha hn
    exact step_of_notYet hr hs ((fetch_of_accepting ha).trans (fetchOperands_partial hn))

/-- Settles O4: the command is latched whole (`fetchOperands_whole`) and decoded. -/
theorem stepRunsTheDecodedCommand : Obligations.StepRunsTheDecodedCommand := by
  constructor
  · rintro s w ops rest i ⟨hr, hs, ha⟩ hw hn hd
    exact step_of_command hr hs ((fetch_of_word ha hw).trans (fetchOperands_whole rfl hn)) hd
  · intro s ops rest i hr hs ha hw hn hd
    exact step_of_command hr hs ((fetch_of_accepting ha).trans (fetchOperands_whole hw hn)) hd

/-- The words of a 32-bit table word: itself as the command word, and its operand words (R64). -/
theorem tableWords_eq (w : Nat) :
    ∃ ops, tableWords 32 w = BitVec.ofNat 32 w :: ops ∧ ops.length = operandWords (BitVec.ofNat 32 w) := by
  have hw : BitVec.ofNat 32 (w % 2 ^ 32) = BitVec.ofNat 32 w := BitVec.eq_of_toNat_eq (by simp)
  exact ⟨_, by rw [tableWords, hw], by simp⟩

/-- Settles O5: the words of the table word make up one whole command, which O4's step takes. -/
theorem fetchWordRunsItsInstr : Obligations.FetchWordRunsItsInstr := by
  intro s w i h
  obtain ⟨ops, hw, hn⟩ := tableWords_eq w
  have hd : decodeCommand (BitVec.ofNat 32 w) ops = .instr i := by
    rw [decodeTableWord, hw, ← List.append_nil ops, decode_append hn] at h
    dsimp only at h
    split at h <;> cases h
    assumption
  obtain ⟨hstep, -⟩ := stepRunsTheDecodedCommand
  have hhost : (s.withFetchWord 32 w).hostWords = BitVec.ofNat 32 w :: (ops ++ s.hostWords) := by
    rw [State.withFetchWord, hw, List.cons_append]
  exact ⟨ops, hn, hstep _ _ ops s.hostWords i ⟨rfl, rfl, rfl⟩ hhost hn hd⟩

/-! ## Frames (30 R67, R68, 41 R90) -/

/-- A frame as a number: the high nibble of the payload, 8 for BL, 1 for RS (R67, R90). -/
theorem frameOf_toNat (bl rs : Bool) (p : Byte) :
    (frameOf bl rs p).toNat = p.toNat / 16 * 16 + 8 * bl.toNat + rs.toNat := by
  revert bl rs p; decide

/-- Settles O16: bits 2 and 1 of a frame are clear (`frameOf_clear`), so adding EN sets bit 2 and carries nothing. -/
theorem frameComposition : Obligations.FrameComposition := by
  intro bl rs p
  have hclear := frameOf_clear bl rs p
  have hen : frameOf bl rs p &&& 0x04#8 = 0#8 := by
    simpa [BitVec.and_assoc] using congrArg (· &&& 0x04#8) hclear
  have hbl := bl.toNat_le
  have hrs := rs.toNat_le
  have hnat := frameOf_toNat bl rs p
  refine ⟨hnat, by simpa using congrArg (·.getLsbD 2) hclear, hclear.getLsbD_one,
    BitVec.add_eq_or_of_and_eq_zero _ _ hen, by omega, fun en => ?_⟩
  rw [strobeByte_getLsbD hclear en (by decide), hclear.getLsbD_one]

/-! ## The bytes of a probe write (30 R71, R43) -/

/-- Byte `k` of a write is bits `8k+7 : 8k` of its value (R43). -/
theorem leBytes_getElem? {n k : Nat} (h : k < n) (v : Nat) :
    (leBytes n v)[k]? = some (BitVec.ofNat 8 (v / 2 ^ (8 * k))) := by
  induction n generalizing k v with
  | zero => omega
  | succ n ih =>
    cases k with
    | zero => simp [leBytes]
    | succ k =>
      have hp : 2 ^ (8 * (k + 1)) = 256 * 2 ^ (8 * k) := by rw [Nat.mul_succ, pow_add]; omega
      rw [leBytes, List.getElem?_cons_succ, ih (by omega), Nat.div_div_eq_div_mul, hp]

theorem leBytes_zero (n : Nat) : leBytes n 0 = List.replicate n 0x00#8 := by
  induction n with
  | zero => rfl
  | succ n ih => rw [leBytes, Nat.zero_div, ih, List.replicate_succ]

/-- `2^(8n) - 1` is `n` bytes of 0xFF (R71). -/
theorem leBytes_ones (n : Nat) : leBytes n (2 ^ (8 * n) - 1) = List.replicate n 0xFF#8 := by
  induction n with
  | zero => rfl
  | succ n ih =>
    have hp : 2 ^ (8 * (n + 1)) = 2 ^ (8 * n) * 256 := by rw [Nat.mul_succ, pow_add]; norm_num
    have hpos := Nat.two_pow_pos (8 * n)
    have hdiv : (2 ^ (8 * (n + 1)) - 1) / 256 = 2 ^ (8 * n) - 1 := by omega
    have hlow : BitVec.ofNat 8 (2 ^ (8 * (n + 1)) - 1) = 0xFF#8 := BitVec.eq_of_toNat_eq (by simp; omega)
    rw [leBytes, hdiv, hlow, ih, List.replicate_succ]

/-- Settles O35, for every width of a write (`leBytes_ones`, `leBytes_zero`, `leBytes_getElem?`). -/
theorem probePatterns : Obligations.ProbePatterns :=
  ⟨fun _ => ⟨leBytes_ones _, leBytes_zero _⟩, leBytes_ones 4, leBytes_zero 2, fun _ v _ h => leBytes_getElem? h v⟩

/-! ## One response per command (30 R60, 60 R119) -/

/-- Appending as arithmetic: `x` stands above the `n` bits of `y`. -/
theorem toNat_append_eq {m n : Nat} (x : BitVec m) (y : BitVec n) : (x ++ y).toNat = x.toNat * 2 ^ n + y.toNat := by
  rw [BitVec.toNat_append, ← Nat.shiftLeft_add_eq_or_of_lt y.isLt, Nat.shiftLeft_eq]

/-- The layout of a response word, as a number (R60). -/
theorem responseWord_toNat (s : State) :
    (responseWord s).toNat = s.status.toNat + 2 ^ 4 * s.resultAddr.toNat + 2 ^ 11 * s.addrValid.toNat +
      2 ^ 12 * s.bl.toNat + 2 ^ 13 * s.rs.toNat := by
  simp only [responseWord, toNat_append_eq, BitVec.toNat_ofBool, BitVec.toNat_zero]
  omega

/-- The record grew by port events that SEQ_POS counts, and where the command has ended (IDLE) by one response after
them, of the registers as they stand (60 R119). -/
def Responds (log : List PortEvent) (t : State) : Prop :=
  ∃ es, (∀ e ∈ es, e.counted = true) ∧
    (t.seq = .idle ∧ t.log = log ++ es ++ [.response (responseWord t)] ∨ t.seq = .busy ∧ t.log = log ++ es)

namespace Responds

variable {log es : List PortEvent} {s t : State}

theorem prepend (he : ∀ e ∈ es, e.counted = true) : Responds (log ++ es) t → Responds log t
  | ⟨fs, hf, h⟩ => ⟨es ++ fs, by simpa [or_imp, forall_and] using ⟨he, hf⟩, by simpa using h⟩

theorem finish (st : Status) (s : State) : Responds s.log (finish st s) :=
  ⟨[], by simp, .inl ⟨rfl, by rw [List.append_nil]; rfl⟩⟩

theorem waitAt (p : Prog) (s : State) : Responds s.log (waitAt p s) :=
  ⟨[], by simp, .inr ⟨rfl, by simp⟩⟩

end Responds

theorem counted_of_probeEvent {p : Params} {a : Addr} {e : PortEvent} (h : ProbeEvent p a e) : e.counted = true := by
  rcases h with ⟨r, rfl⟩ | ⟨r, rfl⟩ | ⟨r, rfl⟩ <;> rfl

theorem runProg_responds (p : Prog) (s : State) : Responds s.log (runProg p s) := by
  induction p generalizing s with
  | complete st => exact .finish st s
  | set w k ih =>
    have hk := ih (w.apply s)
    cases w <;> exact hk
  | compose p k ih => exact ih _
  | frameWrite en k ih =>
    rw [runProg]
    rcases memWrite_cases s.addr [strobeByte en s.frame] s with ⟨_, h⟩ | ⟨rest, _, h⟩ | ⟨rest, _, h⟩ <;> rw [h]
    · exact .waitAt _ s
    · exact (ih _).prepend (by simp [PortEvent.counted])
    · exact (Responds.finish _ _).prepend (by simp [PortEvent.counted])
  | sleep d k ih =>
    rw [runProg]
    rcases sleepFor_cases (delayMs s.params d) s with ⟨_, h⟩ | ⟨h', _, h⟩ <;> rw [h]
    · exact .waitAt _ s
    · exact (ih _).prepend (by simp [PortEvent.counted])
  | probe at_ acc rej iha ihr =>
    rw [runProg]
    obtain ⟨es, hf, hes, -⟩ := probeFrom_probed at_ s
    have he : ∀ e ∈ es, e.counted = true := fun e he => counted_of_probeEvent (hes e he)
    have hl := hf.log
    generalize probeFrom at_ s = r at hl ⊢
    cases r with
    | accept s1 => exact .prepend he (hl ▸ iha s1)
    | reject s1 => exact .prepend he (hl ▸ ihr s1)
    | raised s1 => exact .prepend he (hl ▸ .finish _ s1)
    | wait p1 s1 => exact .prepend he (hl ▸ .waitAt _ s1)

/-- Executing a command responds once or waits at a port event, turned away or not. -/
theorem exec_responds (i : Instr) (s : State) :
    ∃ t, exec i s = .next t ∧ Responds s.log t ∧ (t.seq = .busy → (pendingRequest t).isSome = true) := by
  refine ⟨_, exec_eq i s, ?_⟩
  split
  · exact ⟨.finish _ s, by simp⟩
  · refine ⟨runProg_responds _ s, fun hb => ?_⟩
    rcases runProg_ends (progOf i) s with ⟨hi, -⟩ | ⟨-, hp⟩
    · cases hi.symm.trans hb
    · exact hp

/-- Settles O37: what a command adds to the record (`exec_responds`), and the response's layout
(`responseWord_toNat`). -/
theorem oneResponsePerCommand : Obligations.OneResponsePerCommand := by
  intro i s
  obtain ⟨t, he, ⟨es, hes, ⟨hs, hl⟩ | ⟨hs, hl⟩⟩, hp⟩ := exec_responds i s
  · exact ⟨t, es, he, .inl ⟨hs, _, hl, hes, responseWord_toNat t⟩⟩
  · exact ⟨t, es, he, .inr ⟨hs, hl, hes, hp hs⟩⟩

/-! ## The assembler (30 R72 to R74) -/

theorem toNat_ofInt_of_lt {n : Nat} {x : Int} (h0 : 0 ≤ x) (h : x < 2 ^ n) : ((BitVec.ofInt n x).toNat : Int) = x := by
  rw [BitVec.toNat_ofInt, Int.toNat_of_nonneg (Int.emod_nonneg _ (by positivity)),
    Int.emod_eq_of_lt h0 (by exact_mod_cast h)]

theorem toNat_ofInt_byte {x : Int} (h : InByte x) : ((BitVec.ofInt 8 x).toNat : Int) = x :=
  toNat_ofInt_of_lt h.1 (by have := h.2; omega)

theorem isByte_iff (x : Int) : isByte x = true ↔ InByte x := by
  simp [isByte, InByte]

/-- A line is accepted exactly when its check holds (R73). -/
theorem exists_checked_iff {ok : Bool} {ws : List Word} : (∃ ws', checked ok ws = .ok ws') ↔ ok = true := by
  cases ok <;> simp [checked]

/-- An accepted line gives the words that were checked. -/
theorem checked_eq_of_exists {ok : Bool} {ws : List Word} (h : ∃ ws', checked ok ws = .ok ws') :
    checked ok ws = .ok ws :=
  if_pos (exists_checked_iff.mp h)

section
variable (a c r n : Int) (t : List Byte)

theorem assembles_init : Assembles (.init a) ↔ 0 ≤ a ∧ a ≤ 127 := by
  simp [Assembles, assembleLine, exists_checked_iff, isAddr]

/-- The lines with one byte: send_command, send_data, send_nibble, put_char (R73, R74). -/
theorem assembles_byte {l : AsmLine} {b : Int} {ws : List Word} (hl : assembleLine l = checked (isByte b) ws) :
    Assembles l ↔ InByte b := by
  rw [Assembles, hl, exists_checked_iff, isByte_iff]

theorem assembles_setCursor : Assembles (.setCursor c r) ↔ InByte c ∧ InByte r := by
  rw [Assembles, assembleLine, exists_checked_iff, Bool.and_eq_true, isByte_iff, isByte_iff]

theorem assembles_showString : Assembles (.showString c r t) ↔ InByte c ∧ InByte r ∧ t.length ≤ 4095 := by
  rw [Assembles, assembleLine, exists_checked_iff, Bool.and_eq_true, Bool.and_eq_true, isByte_iff, isByte_iff,
    and_assoc, decide_eq_true_iff, maxTextLen]

theorem assembles_showNumber :
    Assembles (.showNumber c r n) ↔ InByte c ∧ InByte r ∧ -2147483648 ≤ n ∧ n ≤ 2147483647 := by
  simp [Assembles, assembleLine, exists_checked_iff, isByte_iff, isNumber, and_assoc]

end

/-- The lines without operands, with the commands they stand for (R72, R74). -/
def bareLines : List (AsmLine × Instr) :=
  [(.displayOn, .displayOn), (.displayOff, .displayOff), (.clear, .clear), (.backlightOn, .backlightOn),
   (.backlightOff, .backlightOff), (.scrollLeft, .scrollLeft), (.scrollRight, .scrollRight), (.resolve, .resolve),
   (.initAuto, .init 0)]

theorem assembleLine_bare : ∀ l ∈ bareLines, l.2.wf = true ∧ assembleLine l.1 = .ok (encode l.2) := by
  simp [bareLines, Instr.wf, assembleLine]

/-- Settles O46, line by line. -/
theorem assemblerChecksRanges : Obligations.AssemblerChecksRanges := by
  refine ⟨assembles_init, fun b => ⟨assembles_byte rfl, assembles_byte rfl, assembles_byte rfl, assembles_byte rfl⟩,
    assembles_setCursor, assembles_showString, assembles_showNumber, fun l hl => ?_⟩
  obtain ⟨e, he, rfl⟩ := List.mem_map.mp (show l ∈ bareLines.map Prod.fst from hl)
  exact ⟨_, (assembleLine_bare e he).2⟩

/-- A line whose words are a command's encoding decodes to that command (`decodeOfEncodeIsTheCommand`). -/
theorem assemblesTo_of_encode {l : AsmLine} {i : Instr} (hl : assembleLine l = .ok (encode i)) (h : i.wf = true) :
    AssemblesTo l i :=
  ⟨_, hl, fun rest => decodeOfEncodeIsTheCommand i rest h⟩

/-- A line with one byte, of a command whose operand is that byte (R74). -/
theorem byteLine_decodes {l : AsmLine} {b : Int} {f : Byte → Instr}
    (hl : assembleLine l = checked (isByte b) (encode (f (BitVec.ofInt 8 b)))) (hwf : ∀ v, (f v).wf = true)
    (h : Assembles l) : ∃ v : Byte, AssemblesTo l (f v) ∧ (v.toNat : Int) = b :=
  have hb := (assembles_byte hl).mp h
  ⟨_, assemblesTo_of_encode (hl.trans (if_pos ((isByte_iff b).mpr hb))) (hwf _), toNat_ofInt_byte hb⟩

theorem setCursorByte_toNat (c r : Int) :
    ((setCursorByte c r).toNat : Int) = ((if r ≠ 0 then 0xC0 else 0x80) + c) % 256 := by
  rw [setCursorByte, BitVec.toNat_ofInt, Int.toNat_of_nonneg (Int.emod_nonneg _ (by positivity))]
  rfl

/-- Settles O47: an accepted line gives the encoding of its command (`assemblesTo_of_encode`), whose operands are as
written because they passed their range checks. -/
theorem assembledLinesDecode : Obligations.AssembledLinesDecode := by
  refine ⟨fun a h => ?_, fun c r t h => ?_, fun c r n h => ?_, fun b => ⟨?_, ?_, ?_, ?_⟩, fun c r h => ?_,
    fun l i hl => ?_, fun w ws h => ?_⟩
  · obtain ⟨h0, h1⟩ := (assembles_init a).mp h
    exact ⟨_, assemblesTo_of_encode (checked_eq_of_exists h) rfl, toNat_ofInt_of_lt h0 (by omega)⟩
  · obtain ⟨hc, hr, ht⟩ := (assembles_showString c r t).mp h
    exact ⟨_, _, assemblesTo_of_encode (checked_eq_of_exists h) (decide_eq_true ht), toNat_ofInt_byte hc,
      toNat_ofInt_byte hr⟩
  · obtain ⟨hc, hr, h0, h1⟩ := (assembles_showNumber c r n).mp h
    have hn : (BitVec.ofInt 32 n).toInt = n := by rw [BitVec.toInt_ofInt, Int.bmod_eq_of_le] <;> simp <;> omega
    exact ⟨_, _, _, assemblesTo_of_encode (checked_eq_of_exists h) rfl, toNat_ofInt_byte hc, toNat_ofInt_byte hr, hn⟩
  · exact byteLine_decodes rfl fun _ => rfl
  · exact byteLine_decodes rfl fun _ => rfl
  · exact byteLine_decodes rfl fun _ => rfl
  · exact byteLine_decodes rfl fun _ => rfl
  · exact ⟨_, assemblesTo_of_encode (checked_eq_of_exists h) rfl, setCursorByte_toNat c r⟩
  · obtain ⟨hwf, he⟩ := assembleLine_bare (l, i) hl
    exact assemblesTo_of_encode he hwf
  · have hw : isWord32 w = true := exists_checked_iff.mp ⟨ws, h⟩
    obtain ⟨h0, h1⟩ : 0 ≤ w ∧ w ≤ 4294967295 := by simpa [isWord32] using hw
    have hws : [BitVec.ofInt 32 w] = ws := Except.ok.inj ((checked_eq_of_exists ⟨ws, h⟩).symm.trans h)
    exact ⟨_, hws.symm, toNat_ofInt_of_lt h0 (by omega)⟩

/-- The cursor byte depends on its sum modulo 256 only (R74). -/
theorem setCursorByte_eq_mod (c r : Int) :
    setCursorByte c r = BitVec.ofInt 8 (((if r ≠ 0 then 0xC0 else 0x80) + c) % 256) := by
  apply BitVec.eq_of_toNat_eq
  rw [setCursorByte, BitVec.toNat_ofInt, BitVec.toNat_ofInt]
  exact congrArg Int.toNat (Int.emod_emod _ _).symm

/-- The assembler's cursor byte is that of SHOW_STRING (R74, 42 R103). -/
theorem setCursorByte_eq_cursor (col row : Byte) : setCursorByte col.toNat row.toNat = cursor col row := by
  have hr : (row.toNat : Int) ≠ 0 ↔ row ≠ 0 := by simp [BitVec.toNat_eq]
  rw [setCursorByte, BitVec.ofInt_add, BitVec.ofInt_natCast, BitVec.ofNat_toNat, BitVec.setWidth_eq, cursor]
  simp only [hr]
  split <;> rfl

/-! ## SEND_COMMAND and SEND_DATA one by one, and SHOW_STRING (30 R74) -/

/-- A nibble sent, its three writes answered with ok and `rest` left (41 R92). -/
def nibbleSent (p : Byte) (rest : List WriteAnswer) (s : State) : State :=
  { s with
    frame := frameOf s.bl s.rs p
    writeAnswers := rest
    log := s.log ++ framesTrace s.params s.addr (strobeFrames s.bl s.rs p)
    seqPos := s.seqPos + 6 }

/-- A byte sent with RS as given, its six writes answered with ok and `rest` left (41 R93, R94). -/
def byteSent (r : Bool) (b : Byte) (rest : List WriteAnswer) (s : State) : State :=
  { s with
    rs := r
    frame := frameOf s.bl r (b <<< 4)
    writeAnswers := rest
    log := s.log ++ framesTrace s.params s.addr (byteFrames s.bl r b)
    seqPos := s.seqPos + 12 }

theorem frameOf_add_enBit (bl rs : Bool) (p : Byte) : frameOf bl rs p + enBit = frameOf bl rs p ||| 0x04#8 := by
  obtain ⟨-, -, -, h, -⟩ := frameComposition bl rs p
  exact h

theorem frameOf_highNibble (bl rs : Bool) (p : Byte) : frameOf bl rs (p &&& 0xF0#8) = frameOf bl rs p := by
  simp [frameOf, BitVec.and_assoc]

theorem byteSent_log (r : Bool) (b : Byte) (rest : List WriteAnswer) (s : State) :
    (byteSent r b rest s).log = s.log ++ framesTrace s.params s.addr (byteFrames s.bl r b) := rfl

section
variable {r : Bool} {b : Byte} {k : Prog} {s : State} {rest : List WriteAnswer}

theorem runProg_nibbleSent (ha : Answered s 3 rest) : runProg (sendNibble b k) s = runProg k (nibbleSent b rest s) := by
  obtain ⟨hw, hd⟩ := ha
  rw [runProg_sendNibble b k s rest hw hd, frameOf_add_enBit]
  rfl

/-- Both nibbles of a byte, RS set before them (41 R93, R94). -/
theorem runProg_byteSent (ha : Answered s 6 rest) :
    runProg (.set (.rs r) (sendNibble b (sendNibble (b <<< 4) k))) s = runProg k (byteSent r b rest s) := by
  obtain ⟨hw, hd⟩ := ha
  have h1 : Answered { s with rs := r } 3 (.ok :: .ok :: .ok :: rest) := ⟨hw, hd⟩
  have h2 : Answered (nibbleSent b (.ok :: .ok :: .ok :: rest) { s with rs := r }) 3 rest := ⟨rfl, hd⟩
  rw [runProg_set, apply_rs, runProg_nibbleSent h1, runProg_nibbleSent h2]
  simp [nibbleSent, byteSent, byteFrames, strobeFrames, framesTrace, frameOf_highNibble]

theorem exec_sendCommand (hv : s.addrValid = true) (ha : Answered s 6 rest) :
    exec (.sendCommand b) s = .next (finish .ok (byteSent false b rest s)) := by
  simp [exec_eq, needsAddr, hv, progOf, sendCommand, runProg_byteSent ha, runProg_complete]

theorem exec_sendData (hv : s.addrValid = true) (ha : Answered s 6 rest) :
    exec (.sendData b) s = .next (finish .ok (byteSent true b rest s)) := by
  simp [exec_eq, needsAddr, hv, progOf, sendData, runProg_byteSent ha, runProg_complete]

theorem runProg_sendText_cons (ha : Answered s 6 rest) (text : List Byte) :
    runProg (sendText (b :: text) k) s = runProg (sendText text k) (byteSent true b rest s) :=
  runProg_byteSent ha

theorem exec_showString (hv : s.addrValid = true) (ha : Answered s 6 rest) (col row : Byte) (text : List Byte) :
    exec (.showString col row text) s =
      .next (runProg (sendText text (.complete .ok)) (byteSent false (cursor col row) rest s)) := by
  simp [exec_eq, needsAddr, hv, progOf, showStringProg, sendCommand, runProg_byteSent ha]

end

/-- The answers to the first byte's writes, and those to the others'. -/
theorem Answered.cons {s : State} {n : Nat} {rest : List WriteAnswer} (h : Answered s (6 * (n + 1)) rest) :
    Answered s 6 (List.replicate (6 * n) .ok ++ rest) := by
  obtain ⟨hw, hd⟩ := h
  exact ⟨by rw [hw, Nat.mul_succ, Nat.add_comm, List.replicate_add, List.append_assoc], hd⟩

/-- How many responses some port events hold. -/
def responsesIn (es : List PortEvent) : Nat := (es.filter fun e => !e.counted).length

theorem responsesIn_append (es fs : List PortEvent) : responsesIn (es ++ fs) = responsesIn es + responsesIn fs := by
  rw [responsesIn, List.filter_append, List.length_append, responsesIn, responsesIn]

theorem responsesIn_response (w : Word) : responsesIn [.response w] = 1 := rfl

theorem responsesIn_framesTrace (p : Params) (a : Addr) (fs : List Byte) : responsesIn (framesTrace p a fs) = 0 := by
  induction fs with
  | nil => rfl
  | cons f fs ih => exact (responsesIn_append (frameTrace p a f) _).trans ((Nat.zero_add _).trans ih)

/-- The state but for the record and what completing with OK writes (60 R119). -/
def besideRecord (s : State) : State :=
  settled { s with log := [], status := Status.ok.code, seq := .idle, prog := Prog.nothing }

theorem settled_finish_ok (s : State) : settled { finish .ok s with log := [] } = besideRecord s := rfl

theorem besideRecord_finish_ok (s : State) : besideRecord (finish .ok s) = besideRecord s := rfl

theorem besideRecord_byteSent (r : Bool) (b : Byte) (rest : List WriteAnswer) (s : State) :
    besideRecord (byteSent r b rest s) = { besideRecord s with rs := r, writeAnswers := rest } := rfl

/-- From records `l` and `l'` on, `t` and `u` came by the same port events on the bus, with `m` and `n` responses among
them, and have the same registers and inputs. -/
def SameTrace (m n : Nat) (l l' : List PortEvent) (t u : State) : Prop :=
  ∃ es fs, t.log = l ++ es ∧ u.log = l' ++ fs ∧ es.filter PortEvent.counted = fs.filter PortEvent.counted ∧
    responsesIn es = m ∧ responsesIn fs = n ∧ settled { t with log := [] } = settled { u with log := [] }

theorem SameTrace.prepend {m n m' n' : Nat} {l l' es fs : List PortEvent} {t u : State}
    (h : SameTrace m n (l ++ es) (l' ++ fs) t u) (hc : es.filter PortEvent.counted = fs.filter PortEvent.counted)
    (hm : responsesIn es + m = m') (hn : responsesIn fs + n = n') : SameTrace m' n' l l' t u := by
  obtain ⟨es', fs', ht, hu, hc', rfl, rfl, hs⟩ := h
  exact ⟨es ++ es', fs ++ fs', by simp [ht], by simp [hu], by simp [hc, hc'],
    (responsesIn_append es es').trans hm, (responsesIn_append fs fs').trans hn, hs⟩

/-- Completing with OK from states with the same registers. -/
theorem SameTrace.finish {v u : State} (h : besideRecord v = besideRecord u) :
    SameTrace 1 1 v.log u.log (finish .ok v) (finish .ok u) :=
  ⟨_, _, rfl, rfl, rfl, rfl, rfl, by rw [settled_finish_ok, h, settled_finish_ok]⟩

/-- One SEND_DATA per byte, begun when the command before has just ended from `v`, and the rest of a SHOW_STRING that
stands at `u` with the same registers. -/
theorem sendData_sameTrace {rest : List WriteAnswer} (text : List Byte) {v u : State}
    (h : besideRecord v = besideRecord u) (hv : v.addrValid = true) (ha : Answered v (6 * text.length) rest) :
    ∃ t, execAll (text.map .sendData) (finish .ok v) = .next t ∧
      SameTrace (1 + text.length) 1 v.log u.log t (runProg (sendText text (.complete .ok)) u) := by
  induction text generalizing v u with
  | nil => exact ⟨_, rfl, .finish h⟩
  | cons b text ih =>
    have hav := ha.cons
    have hau : Answered u 6 (List.replicate (6 * text.length) .ok ++ rest) :=
      ⟨(congrArg State.writeAnswers h).symm.trans hav.1, (congrArg State.delayHold h).symm.trans hav.2⟩
    have htrace : framesTrace v.params v.addr (byteFrames v.bl true b) =
        framesTrace u.params u.addr (byteFrames u.bl true b) :=
      congrArg (fun s => framesTrace s.params s.addr (byteFrames s.bl true b)) h
    obtain ⟨t, ht, hst⟩ := ih (v := byteSent true b _ (finish .ok v)) (u := byteSent true b _ u)
      (by rw [besideRecord_byteSent, besideRecord_finish_ok, h, besideRecord_byteSent]) hv ⟨rfl, ha.2⟩
    refine ⟨t, ?_, ?_⟩
    · rw [List.map_cons, execAll, exec_sendData (s := finish .ok v) hv hav]
      exact ht
    · rw [runProg_sendText_cons hau]
      rw [byteSent_log, finish_log, List.append_assoc, byteSent_log] at hst
      refine hst.prepend ?_ ?_ ?_
      · simp [htrace, PortEvent.counted]
      · rw [responsesIn_append, responsesIn_response, responsesIn_framesTrace, List.length_cons]; omega
      · rw [responsesIn_framesTrace]

/-- Settles O32: the expansions one by one, and the two runs side by side (`sendData_sameTrace`). -/
theorem pseudoInstructionsReproduceShowString : Obligations.PseudoInstructionsReproduceShowString := by
  refine ⟨rfl, fun c r hc hc' hr hr' => ?_, fun _ => rfl, fun col row => ?_, fun col row text s rest hv ha => ?_⟩
  · have hx : isByte (((if r ≠ 0 then 0xC0 else 0x80) + c) % 256) = true := (isByte_iff _).mpr ⟨by omega, by omega⟩
    have hok : (isByte c && isByte r) = true := by simp [isByte, *]
    rw [assembleLine, assembleLine, setCursorByte_eq_mod, hx, hok]
  · have hok : (isByte col.toNat && isByte row.toNat) = true := by simp [isByte]; omega
    rw [assembleLine, setCursorByte_eq_cursor, hok]
    rfl
  · rw [Nat.add_comm] at ha
    obtain ⟨t, ht, hst⟩ := sendData_sameTrace text (v := byteSent false (cursor col row) _ s) rfl hv ⟨rfl, ha.2⟩
    obtain ⟨es, fs, h⟩ := hst.prepend (l := s.log) (l' := s.log) rfl (by rw [responsesIn_framesTrace, Nat.zero_add])
      (by rw [responsesIn_framesTrace])
    refine ⟨t, _, es, fs, ?_, exec_showString hv ha.cons col row text, h⟩
    rw [execAll, exec_sendCommand hv ha.cons]
    exact ht

end Sys2Proof.Machine

namespace Sys2Proof.Machine

/-! # PROOFS of the family 40_address_resolver: the acceptance condition, the scan as a function of the answers, RESOLVE

## The acceptance condition (40 R81, R82) -/

/-- Settles O34: D1 is `r1` modulo 16, and `r2` is read as the unsigned number it is. -/
theorem probeAcceptsTheSignature : Obligations.ProbeAcceptsTheSignature := by
  intro r1 r2
  simp [signature, BitVec.toNat_eq, BitVec.extractLsb'_toNat]

theorem signature_eq_accepts (r1 r2 : Byte) : signature (r1.extractLsb' 0 4) r2 = (ProbeRun.whole r1 r2).accepts := by
  rw [Bool.eq_iff_iff, probeAcceptsTheSignature r1 r2]
  simp [ProbeRun.accepts]

/-! ## What a scan comes to, as a function of the parameters and the transport's answers (40 R80 to R85, R89) -/

/-- How a scan ends: with an address found, with all candidates rejected, with an error raised, or at a transaction that
has no answer yet. -/
inductive ScanOutcome where
  | found (a : Addr)
  | notFound
  | raised
  | waits

/-- What a scan, or a part of one, comes to: its outcome, its port events, the answers it leaves. -/
structure ScanResult where
  outcome : ScanOutcome
  events : List PortEvent
  writes : List WriteAnswer
  reads : List ReadAnswer

/-- The events `es` before what the rest of the scan comes to. -/
def ScanResult.after (es : List PortEvent) (x : ScanResult) : ScanResult := { x with events := es ++ x.events }

/-- A scan that goes on, with the answers left, where the first part has found no address (40 R83). -/
def ScanResult.andThen (x : ScanResult) (f : List WriteAnswer → List ReadAnswer → ScanResult) : ScanResult :=
  match x.outcome with
  | .notFound => (f x.writes x.reads).after x.events
  | .found _ => x
  | .raised => x
  | .waits => x

theorem ScanResult.andThen_ends {x : ScanResult} {f : List WriteAnswer → List ReadAnswer → ScanResult}
    (h : x.outcome ≠ .notFound) : x.andThen f = x := by
  unfold ScanResult.andThen
  split
  · contradiction
  all_goals rfl

/-- An error rejects the candidate or is raised (40 R85). -/
def errorOutcome (p : Params) : ScanOutcome :=
  match p.resolverErr with
  | .rejectCandidate => .notFound
  | .propagate => .raised

section
variable (p : Params) (a : Addr)

/-- The end of the probe of `a` from its second read on, D1 being `d1`. -/
def readSecondResult (d1 : BitVec 4) : List WriteAnswer → List ReadAnswer → ScanResult
  | ws, [] => ⟨.waits, [], ws, []⟩
  | ws, .error :: rs => ⟨errorOutcome p, [.read a .error], ws, rs⟩
  | ws, .ok b :: rs => ⟨if signature d1 b then .found a else .notFound, [.read a (.ok b)], ws, rs⟩

/-- The end of the probe of `a` from its zero write on, D1 being `d1`. -/
def writeZeroResult (d1 : BitVec 4) : List WriteAnswer → List ReadAnswer → ScanResult
  | [], rs => ⟨.waits, [], [], rs⟩
  | .error :: ws, rs => ⟨errorOutcome p, [.write a (zeroProbe p) .error], ws, rs⟩
  | .ok :: ws, rs => (readSecondResult p a d1 ws rs).after [.write a (zeroProbe p) .ok]

/-- The end of the probe of `a` from its first read on. -/
def readFirstResult : List WriteAnswer → List ReadAnswer → ScanResult
  | ws, [] => ⟨.waits, [], ws, []⟩
  | ws, .error :: rs => ⟨errorOutcome p, [.read a .error], ws, rs⟩
  | ws, .ok b :: rs => (writeZeroResult p a (b.extractLsb' 0 4) ws rs).after [.read a (.ok b)]

/-- What the probe of `a` comes to (40 R80). -/
def probeResult : List WriteAnswer → List ReadAnswer → ScanResult
  | [], rs => ⟨.waits, [], [], rs⟩
  | .error :: ws, rs => ⟨errorOutcome p, [.write a (onesProbe p) .error], ws, rs⟩
  | .ok :: ws, rs => (readFirstResult p a ws rs).after [.write a (onesProbe p) .ok]

end

/-- What a scan of the candidates `as` comes to (40 R83). -/
def scanResult (p : Params) : List Addr → List WriteAnswer → List ReadAnswer → ScanResult
  | [], ws, rs => ⟨.notFound, [], ws, rs⟩
  | a :: as, ws, rs => (probeResult p a ws rs).andThen (scanResult p as)

/-! ## The micro-program of a scan comes to that -/

/-- `t` is `s` after the port events `es` of some probes, which left the answers `ws` and `rs`; what the probes write
beside (SEQ_POS, CAND, WIN, D1, D2) is put aside. -/
def Probes (s : State) (es : List PortEvent) (ws : List WriteAnswer) (rs : List ReadAnswer) (t : State) : Prop :=
  settled t = settled { s with writeAnswers := ws, readAnswers := rs, log := s.log ++ es }

namespace Probes

variable {s t u : State} {es fs : List PortEvent} {ws ws' : List WriteAnswer} {rs rs' : List ReadAnswer}

theorem refl (s : State) : Probes s [] s.writeAnswers s.readAnswers s := by rw [Probes, List.append_nil]

theorem write (s : State) (a : Addr) (bs : List Byte) (r : WriteAnswer) (ws : List WriteAnswer) :
    Probes s [.write a bs r] ws s.readAnswers (emit (.write a bs r) { s with writeAnswers := ws }) := rfl

theorem read (s : State) (a : Addr) (r : ReadAnswer) (rs : List ReadAnswer) :
    Probes s [.read a r] s.writeAnswers rs (emit (.read a r) { s with readAnswers := rs }) := rfl

theorem setD (h : Probes s es ws rs t) (d1 : BitVec 4) (d2 : Byte) : Probes s es ws rs { t with d1 := d1, d2 := d2 } := h

theorem trans (h : Probes s es ws rs t) (k : Probes t fs ws' rs' u) : Probes s (es ++ fs) ws' rs' u := by
  rw [Probes, ← List.append_assoc]
  exact Eq.trans k (congrArg (fun v => { v with writeAnswers := ws', readAnswers := rs', log := v.log ++ fs }) h)

theorem params (h : Probes s es ws rs t) : t.params = s.params := show (settled t).params = _ by rw [h]; rfl

theorem writes (h : Probes s es ws rs t) : t.writeAnswers = ws := congrArg (fun v : State => v.writeAnswers) h

theorem reads (h : Probes s es ws rs t) : t.readAnswers = rs := congrArg (fun v : State => v.readAnswers) h

theorem log (h : Probes s es ws rs t) : t.log = s.log ++ es := congrArg (fun v : State => v.log) h

end Probes

section
variable (found : Addr → Prog) (k : Prog)

/-- `r` is how a command goes on from `t` after its scan: with `found a`, with `k`, ending, or waiting. -/
def ScanOutcome.Ends (t r : State) : ScanOutcome → Prop
  | .found a => r = runProg (found a) t
  | .notFound => r = runProg k t
  | .raised => r = finish .transportError t
  | .waits => ∃ q, r = waitAt q t

/-- The run from `s` to `r` begins with a scan that comes to `x`. -/
def ComesTo (s : State) (x : ScanResult) (r : State) : Prop :=
  ∃ t, Probes s x.events x.writes x.reads t ∧ x.outcome.Ends found k t r

/-- The micro-program `p` scans `as`: it probes them in turn, setting WIN on the way, and goes on with `found a` or `k`. -/
inductive Scans : List Addr → Prog → Prop where
  | done : Scans [] k
  | setWindow {as : List Addr} {p : Prog} (w : Window) : Scans as p → Scans as (.set (.win w) p)
  | probe {as : List Addr} {p : Prog} (a : Addr) : Scans as p →
      Scans (a :: as) (.set (.cand a) (.probe .writeOnes (found a) p))

end

section
variable {found : Addr → Prog} {k : Prog}

theorem scans_scan {as bs : List Addr} {p : Prog} (h : Scans found k bs p) :
    Scans found k (as ++ bs) (scan found as p) := by
  induction as with
  | nil => exact h
  | cons a as ih => exact ih.probe a

/-- The two windows are one scan of all candidates (40 R83). -/
theorem scans_resolver : Scans found k candidates (resolver found k) :=
  .setWindow .a (scans_scan (as := windowA) (.setWindow .b (scans_scan (as := windowB) .done)))

theorem ComesTo.after {s t r : State} {es : List PortEvent} {ws : List WriteAnswer} {rs : List ReadAnswer} {x : ScanResult}
    (h : Probes s es ws rs t) : ComesTo found k t x r → ComesTo found k s (x.after es) r
  | ⟨u, hu, he⟩ => ⟨u, h.trans hu, he⟩

theorem ComesTo.andThen {k' : Prog} {s r : State} {x : ScanResult} {f : List WriteAnswer → List ReadAnswer → ScanResult}
    (h : ComesTo found k s x r)
    (hk : ∀ t, t.params = s.params → ComesTo found k' t (f t.writeAnswers t.readAnswers) (runProg k t)) :
    ComesTo found k' s (x.andThen f) r := by
  obtain ⟨o, es, ws, rs⟩ := x
  obtain ⟨t, ht, he⟩ := h
  cases o with
  | found a => exact ⟨t, ht, he⟩
  | notFound =>
    have hn := hk t ht.params
    rw [ht.writes, ht.reads, ← show r = runProg k t from he] at hn
    exact .after ht hn
  | raised => exact ⟨t, ht, he⟩
  | waits => exact ⟨t, ht, he⟩

end

/-- The outcome of a probe of `a`, as the outcome of a scan. -/
def ProbeResult.outcome (a : Addr) : ProbeResult → ScanOutcome
  | .accept _ => .found a
  | .reject _ => .notFound
  | .raised _ => .raised
  | .wait _ _ => .waits

/-- The rest of a probe from `s`, with the result `res`, comes to `x`. -/
structure ProbeComesTo (s : State) (x : ScanResult) (res : ProbeResult) : Prop where
  probes : Probes s x.events x.writes x.reads res.state
  outcome : res.outcome s.cand = x.outcome

namespace ProbeComesTo

variable {s t : State} {es : List PortEvent} {ws : List WriteAnswer} {rs : List ReadAnswer}

/-- The answered transactions `es`, and the rest of the probe after them. -/
theorem after {x : ScanResult} {res : ProbeResult} (h : Probes s es ws rs t) (hc : t.cand = s.cand)
    (k : ProbeComesTo t x res) : ProbeComesTo s (x.after es) res :=
  ⟨h.trans k.probes, hc ▸ k.outcome⟩

theorem error (h : Probes s es ws rs t) : ProbeComesTo s ⟨errorOutcome s.params, es, ws, rs⟩ (probeError t) := by
  refine ⟨by rwa [probeError_state], ?_⟩
  rw [← h.params, errorOutcome, probeError]
  cases t.params.resolverErr <;> rfl

theorem verdict (h : Probes s es ws rs t) (ok : Bool) :
    ProbeComesTo s ⟨if ok then .found s.cand else .notFound, es, ws, rs⟩ (if ok then .accept t else .reject t) := by
  cases ok <;> exact ⟨h, rfl⟩

theorem waitsToWrite (q : ProbeStep) (h : s.writeAnswers = []) :
    ProbeComesTo s ⟨.waits, [], [], s.readAnswers⟩ (.wait q s) := ⟨h ▸ .refl s, rfl⟩

theorem waitsToRead (q : ProbeStep) (h : s.readAnswers = []) :
    ProbeComesTo s ⟨.waits, [], s.writeAnswers, []⟩ (.wait q s) := ⟨h ▸ .refl s, rfl⟩

end ProbeComesTo

section
variable (s : State)

theorem probeReadSecond_comesTo :
    ProbeComesTo s (readSecondResult s.params s.cand s.d1 s.writeAnswers s.readAnswers) (probeReadSecond s) := by
  unfold probeReadSecond
  rcases memRead_cases s.cand s with ⟨hr, h⟩ | ⟨b, rest, hr, h⟩ | ⟨rest, hr, h⟩ <;> rw [h, hr]
  · exact .waitsToRead _ hr
  · exact .verdict ((Probes.read s s.cand (.ok b) rest).setD s.d1 b) _
  · exact .error (.read s s.cand .error rest)

theorem probeWriteZero_comesTo :
    ProbeComesTo s (writeZeroResult s.params s.cand s.d1 s.writeAnswers s.readAnswers) (probeWriteZero s) := by
  unfold probeWriteZero
  rcases memWrite_cases s.cand (zeroProbe s.params) s with ⟨hw, h⟩ | ⟨rest, hw, h⟩ | ⟨rest, hw, h⟩ <;> rw [h, hw]
  · exact .waitsToWrite _ hw
  · exact .after (.write s s.cand (zeroProbe s.params) .ok rest) rfl (probeReadSecond_comesTo _)
  · exact .error (.write s s.cand (zeroProbe s.params) .error rest)

theorem probeReadFirst_comesTo :
    ProbeComesTo s (readFirstResult s.params s.cand s.writeAnswers s.readAnswers) (probeReadFirst s) := by
  unfold probeReadFirst
  rcases memRead_cases s.cand s with ⟨hr, h⟩ | ⟨b, rest, hr, h⟩ | ⟨rest, hr, h⟩ <;> rw [h, hr]
  · exact .waitsToRead _ hr
  · exact .after ((Probes.read s s.cand (.ok b) rest).setD (b.extractLsb' 0 4) s.d2) rfl (probeWriteZero_comesTo _)
  · exact .error (.read s s.cand .error rest)

theorem probeWriteOnes_comesTo :
    ProbeComesTo s (probeResult s.params s.cand s.writeAnswers s.readAnswers) (probeWriteOnes s) := by
  unfold probeWriteOnes
  rcases memWrite_cases s.cand (onesProbe s.params) s with ⟨hw, h⟩ | ⟨rest, hw, h⟩ | ⟨rest, hw, h⟩ <;> rw [h, hw]
  · exact .waitsToWrite _ hw
  · exact .after (.write s s.cand (onesProbe s.params) .ok rest) rfl (probeReadFirst_comesTo _)
  · exact .error (.write s s.cand (onesProbe s.params) .error rest)

end

section
variable {found : Addr → Prog} {k : Prog}

/-- A probe as the first part of a scan. -/
theorem probe_comesTo (s : State) : ComesTo found k s (probeResult s.params s.cand s.writeAnswers s.readAnswers)
    (runProg (.probe .writeOnes (found s.cand) k) s) := by
  obtain ⟨hp, ho⟩ := probeWriteOnes_comesTo s
  rw [runProg, probeFrom]
  generalize probeWriteOnes s = res at hp ho ⊢
  refine ⟨res.state, hp, ho ▸ ?_⟩
  cases res with
  | accept t => exact rfl
  | reject t => exact rfl
  | raised t => exact rfl
  | wait q t => exact ⟨_, rfl⟩

/-- A scan comes to the result that the parameters and the answers give (40 R89). -/
theorem Scans.comesTo {as : List Addr} {p : Prog} (h : Scans found k as p) (s : State) :
    ComesTo found k s (scanResult s.params as s.writeAnswers s.readAnswers) (runProg p s) := by
  induction h generalizing s with
  | done => exact ⟨s, .refl s, rfl⟩
  | setWindow w _ ih => exact ih { s with win := w }
  | probe a _ ih =>
    refine ComesTo.andThen (probe_comesTo { s with cand := a }) fun t ht => ?_
    rw [← show t.params = s.params from ht]
    exact ih t

end

theorem resolver_comesTo (found : Addr → Prog) (k : Prog) (s : State) :
    ComesTo found k s (scanResult s.params candidates s.writeAnswers s.readAnswers) (runProg (resolver found k) s) :=
  scans_resolver.comesTo s

/-! ## Answered scans (40 R83 to R85, R88) -/

/-- The outcome of the probe of `a` with the answers `q`: an error ends it (R85), the readbacks decide it (R82). -/
def ProbeRun.outcome (p : Params) (a : Addr) (q : ProbeRun) : ScanOutcome :=
  if q.errs then errorOutcome p else if q.accepts then .found a else .notFound

section
variable {p : Params} {q : ProbeRun} {qs : List ProbeRun} {ws : List WriteAnswer} {rs : List ReadAnswer}

theorem outcome_of_accepts (a : Addr) (h : q.accepts = true) : q.outcome p a = .found a := by
  cases q with
  | whole r1 r2 => simp [ProbeRun.outcome, ProbeRun.errs, h]
  | firstWriteErrs | firstReadErrs | secondWriteErrs | secondReadErrs => exact nomatch h

theorem outcome_of_errs (a : Addr) (hp : p.resolverErr = .propagate) (h : q.errs = true) : q.outcome p a = .raised := by
  rw [ProbeRun.outcome, if_pos h, errorOutcome, hp]

theorem outcome_of_scansOn (a : Addr) (ha : q.accepts = false) (he : p.resolverErr = .propagate → q.errs = false) :
    q.outcome p a = .notFound := by
  rw [ProbeRun.outcome, errorOutcome, ha]
  cases hp : p.resolverErr with
  | rejectCandidate => simp
  | propagate => simp [he hp]

/-- The five ways of answering a probe, its two writes being those of R71. -/
theorem probeResult_of_answered (a : Addr) (q : ProbeRun) :
    probeResult p a (q.writes ++ ws) (q.reads ++ rs) = ⟨q.outcome p a, q.trace p a, ws, rs⟩ := by
  obtain ⟨hones, hzero⟩ := probePatterns.1 p
  cases q <;> simp [ProbeRun.writes, ProbeRun.reads, ProbeRun.trace, ProbeRun.outcome, ProbeRun.errs, probeResult,
    readFirstResult, writeZeroResult, readSecondResult, ScanResult.after, hones, hzero, signature_eq_accepts]

/-- A probe after which the scan goes on. -/
theorem scanResult_cons_scansOn (a : Addr) (as : List Addr) (h : q.outcome p a = .notFound) :
    scanResult p (a :: as) (q.writes ++ ws) (q.reads ++ rs) = (scanResult p as ws rs).after (q.trace p a) := by
  rw [scanResult, probeResult_of_answered, h, ScanResult.andThen]

/-- Candidates none of which ends the scan. -/
theorem scanResult_of_scansOn {as : List Addr} (h : scansOn p qs) (hn : qs.length = as.length) :
    scanResult p as (qs.flatMap ProbeRun.writes ++ ws) (qs.flatMap ProbeRun.reads ++ rs) =
      ⟨.notFound, scanTrace p as qs, ws, rs⟩ := by
  induction qs generalizing as with
  | nil =>
    obtain rfl := List.length_eq_zero_iff.mp hn.symm
    rfl
  | cons q qs ih =>
    obtain ⟨a, as, rfl⟩ := List.exists_cons_of_length_eq_add_one hn.symm
    obtain ⟨⟨ha, he⟩, h⟩ := List.forall_mem_cons.mp h
    rw [List.flatMap_cons, List.flatMap_cons, List.append_assoc, List.append_assoc,
      scanResult_cons_scansOn a as (outcome_of_scansOn a ha he), ih h (Nat.succ.inj hn)]
    rfl

theorem scanTrace_no_probe (p : Params) (as : List Addr) : scanTrace p as [] = [] := by cases as <;> rfl

/-- Candidates none of which ends the scan, and one that does. -/
theorem scanResult_of_last {as : List Addr} {o : ScanOutcome} (h : scansOn p qs) (hn : qs.length < as.length)
    (ho : q.outcome p (as.getD qs.length 0) = o) (hne : o ≠ .notFound) :
    scanResult p as ((qs ++ [q]).flatMap ProbeRun.writes ++ ws) ((qs ++ [q]).flatMap ProbeRun.reads ++ rs) =
      ⟨o, scanTrace p as (qs ++ [q]), ws, rs⟩ := by
  induction qs generalizing as with
  | nil =>
    obtain ⟨a, as, rfl⟩ := List.exists_cons_of_length_pos hn
    subst ho
    simp only [List.nil_append, List.flatMap_singleton, scanResult, probeResult_of_answered, scanTrace, scanTrace_no_probe,
      List.append_nil]
    exact ScanResult.andThen_ends hne
  | cons q' qs ih =>
    obtain ⟨a, as, rfl⟩ := List.exists_cons_of_length_pos (Nat.zero_lt_of_lt hn)
    obtain ⟨⟨ha, he⟩, h⟩ := List.forall_mem_cons.mp h
    rw [List.cons_append, List.flatMap_cons, List.flatMap_cons, List.append_assoc, List.append_assoc,
      scanResult_cons_scansOn a as (outcome_of_scansOn a ha he), ih h (Nat.lt_of_succ_lt_succ hn) ho]
    rfl

end

section
variable {found : Addr → Prog} {k : Prog} {s : State} {qs : List ProbeRun} {q : ProbeRun} {ws : List WriteAnswer}
  {rs : List ReadAnswer}

/-- The resolver up to the probe that ends it: with the address found or with an error raised (40 R83, R85). -/
theorem resolver_of_last {o : ScanOutcome} (h : scansOn s.params qs) (hn : qs.length < 16)
    (ho : q.outcome s.params (candidateAt qs.length) = o) (hne : o ≠ .notFound)
    (hw : s.writeAnswers = (qs ++ [q]).flatMap ProbeRun.writes ++ ws)
    (hr : s.readAnswers = (qs ++ [q]).flatMap ProbeRun.reads ++ rs) :
    ∃ t, Probes s (scanTrace s.params candidates (qs ++ [q])) ws rs t ∧
      o.Ends found k t (runProg (resolver found k) s) := by
  have hx := resolver_comesTo found k s
  rwa [hw, hr, scanResult_of_last (as := candidates) h hn ho hne] at hx

/-- The resolver finds no address (40 R84). -/
theorem resolver_of_scansOn (h : scansOn s.params qs) (hn : qs.length = 16)
    (hw : s.writeAnswers = qs.flatMap ProbeRun.writes ++ ws) (hr : s.readAnswers = qs.flatMap ProbeRun.reads ++ rs) :
    ∃ t, Probes s (scanTrace s.params candidates qs) ws rs t ∧ runProg (resolver found k) s = runProg k t := by
  have hx := resolver_comesTo found k s
  rwa [hw, hr, scanResult_of_scansOn (as := candidates) h hn] at hx

end

/-! ## RESOLVE (40 R87, R89) -/

/-- Settles O33: the scan's result for answers given probe by probe, and what RESOLVE does with it. -/
theorem resolveScansBothWindows : Obligations.ResolveScansBothWindows := by
  intro s qs q ws rs hon
  have he : exec .resolve s = .next (runProg resolveProg s) := exec_eq _ s
  refine ⟨fun hn hq hw hr => ?_, fun hn hw hr => ?_, fun hn hp hq hw hr => ?_⟩
  · obtain ⟨t, ht, hrun⟩ := resolver_of_last hon hn (outcome_of_accepts _ hq) nofun hw hr
    exact ⟨_, he.trans (congrArg _ hrun),
      congrArg (fun v : State => ended .ok { v with resultAddr := candidateAt qs.length }) ht⟩
  · obtain ⟨t, ht, hrun⟩ := resolver_of_scansOn hon hn hw hr
    exact ⟨_, he.trans (congrArg _ hrun),
      congrArg (fun v : State => ended .addressNotFound { v with resultAddr := 0 }) ht⟩
  · obtain ⟨t, ht, hrun⟩ := resolver_of_last hon hn (outcome_of_errs _ hp hq) nofun hw hr
    exact ⟨_, he.trans (congrArg _ hrun), congrArg (ended .transportError) ht⟩

/-- From the records `l1` and `l2` on, two runs of RESOLVE came to `t1` and `t2` by the same port events, with the same
answers left and the same report. -/
def SameReport (l1 l2 : List PortEvent) (t1 t2 : State) : Prop :=
  ∃ es1 es2, t1.log = l1 ++ es1 ∧ t2.log = l2 ++ es2 ∧
    es1.filter PortEvent.counted = es2.filter PortEvent.counted ∧
    t1.seq = t2.seq ∧ t1.writeAnswers = t2.writeAnswers ∧ t1.readAnswers = t2.readAnswers ∧
    (t1.seq = .idle → t1.status = t2.status ∧ (t1.status ≠ 1 → t1.resultAddr = t2.resultAddr))

theorem SameReport.prepend {l1 l2 : List PortEvent} {t1 t2 : State} (es : List PortEvent) :
    SameReport (l1 ++ es) (l2 ++ es) t1 t2 → SameReport l1 l2 t1 t2
  | ⟨es1, es2, h1, h2, hc, h⟩ => ⟨es ++ es1, es ++ es2, by simp [h1], by simp [h2], by simp [hc], h⟩

/-- What RESOLVE does with the address it found (40 R87). -/
def reportFound (a : Addr) : Prog := .set (.resultAddr a) (.complete .ok)

/-- After scans with one outcome and the same answers left, RESOLVE reports the same. -/
theorem sameReport_of_ends {o : ScanOutcome} {t1 t2 r1 r2 : State} (hw : t1.writeAnswers = t2.writeAnswers)
    (hr : t1.readAnswers = t2.readAnswers) (h1 : o.Ends reportFound addressNotFound t1 r1)
    (h2 : o.Ends reportFound addressNotFound t2 r2) : SameReport t1.log t2.log r1 r2 := by
  cases o with
  | found | notFound =>
    obtain ⟨rfl, rfl⟩ := And.intro h1 h2
    exact ⟨[_], [_], rfl, rfl, rfl, rfl, hw, hr, fun _ => ⟨rfl, fun _ => rfl⟩⟩
  | raised =>
    obtain ⟨rfl, rfl⟩ := And.intro h1 h2
    exact ⟨[_], [_], rfl, rfl, rfl, rfl, hw, hr, fun _ => ⟨rfl, fun h => absurd rfl h⟩⟩
  | waits =>
    obtain ⟨⟨q1, rfl⟩, q2, rfl⟩ := And.intro h1 h2
    exact ⟨[], [], by simp, by simp, rfl, rfl, hw, hr, nofun⟩

/-- Settles O36: both scans come to the one result that the parameters and the answers give (`resolver_comesTo`). -/
theorem resolverDependsOnTheAnswersOnly : Obligations.ResolverDependsOnTheAnswersOnly := by
  intro s1 s2 hp hw hr
  obtain ⟨t1, ht1, h1⟩ := resolver_comesTo reportFound addressNotFound s1
  obtain ⟨t2, ht2, h2⟩ := resolver_comesTo reportFound addressNotFound s2
  rw [← hp, ← hw, ← hr] at ht2 h2
  have h := sameReport_of_ends (ht1.writes.trans ht2.writes.symm) (ht1.reads.trans ht2.reads.symm) h1 h2
  rw [ht1.log, ht2.log] at h
  obtain ⟨es1, es2, h⟩ := h.prepend
  exact ⟨_, _, es1, es2, exec_eq _ s1, exec_eq _ s2, h⟩

end Sys2Proof.Machine

namespace Sys2Proof.Machine

/-! # PROOFS of the family 41_nibble_framer: the parts of a micro-program that send frames, SEND_NIBBLE, SEND_COMMAND,
SEND_DATA

## A trace and its bus writes -/

/-- How many bus writes a trace holds. -/
def writesIn (es : List PortEvent) : Nat := (es.filterMap PortEvent.writeAnswer?).length

theorem writesIn_append (es fs : List PortEvent) : writesIn (es ++ fs) = writesIn es + writesIn fs := by
  rw [writesIn, List.filterMap_append, List.length_append, writesIn, writesIn]

theorem framesTrace_append (p : Params) (a : Addr) (fs gs : List Byte) :
    framesTrace p a (fs ++ gs) = framesTrace p a fs ++ framesTrace p a gs := List.flatMap_append

theorem writesIn_framesTrace (p : Params) (a : Addr) (fs : List Byte) : writesIn (framesTrace p a fs) = fs.length := by
  induction fs with
  | nil => rfl
  | cons f fs ih => exact (writesIn_append (frameTrace p a f) _).trans ((congrArg (1 + ·) ih).trans (Nat.add_comm _ _))

/-- A write before the end of `es` fails: nothing of what follows `es` happens. -/
theorem cutAtWrite_append_left {j : Nat} {es : List PortEvent} (h : j < writesIn es) (fs : List PortEvent) :
    cutAtWrite j (es ++ fs) = cutAtWrite j es := by
  induction es generalizing j with
  | nil => exact absurd h (Nat.not_lt_zero j)
  | cons e es ih =>
    cases e with
    | write a bs r =>
      cases j with
      | zero => rfl
      | succ j => exact congrArg (_ :: ·) (ih (Nat.lt_of_succ_lt_succ h))
    | read | delay | response => simp only [List.cons_append, cutAtWrite, ih h]

/-- A write after `es` fails: all of `es` happens. -/
theorem cutAtWrite_append_right (j : Nat) (es fs : List PortEvent) :
    cutAtWrite (writesIn es + j) (es ++ fs) = es ++ cutAtWrite j fs := by
  induction es with
  | nil => exact congrArg (cutAtWrite · fs) (Nat.zero_add j)
  | cons e es ih =>
    cases e with
    | write a bs r =>
      rw [show writesIn (.write a bs r :: es) + j = writesIn es + j + 1 from Nat.add_right_comm ..]
      exact congrArg (_ :: ·) ih
    | read | delay | response =>
      simp only [List.cons_append, cutAtWrite]
      exact congrArg (_ :: ·) ih

/-! ## Parts of a micro-program that send frames (41 R91 to R94) -/

/-- The parameters, the address and the flags that the frames of a nibble depend on; no delay is held up. -/
structure Drives (p : Params) (a : Addr) (bl rs : Bool) (s : State) : Prop where
  params : s.params = p
  addr : s.addr = a
  bl : s.bl = bl
  rs : s.rs = rs
  hold : s.delayHold = none

/-- `t` is `s` after the port events `es`, which left the write answers `rest`; nothing is read. -/
abbrev Sent (s : State) (es : List PortEvent) (rest : List WriteAnswer) (t : State) : Prop :=
  Probes s es rest s.readAnswers t

namespace Sent

variable {s t u : State} {es fs : List PortEvent} {rest rest' : List WriteAnswer}

theorem trans (h : Sent s es rest t) (k : Sent t fs rest' u) : Sent s (es ++ fs) rest' u := by
  rw [Sent, h.reads] at k
  exact Probes.trans h k

/-- A command that completes after the events has ended as the statements on results say (`ended`). -/
theorem settled_finish (h : Sent s es rest t) (st : Status) :
    settled (finish st t) = settled (ended st { s with writeAnswers := rest, log := s.log ++ es }) :=
  congrArg (fun v => settled (finish st v)) h

end Sent

/-- The part `c` of a micro-program, run from a state with `P`, makes the port events `es`: all of them, after which `P`
holds and the rest of the program follows; or, with bus write `j` failing, those up to it, and the command ends there. -/
structure Emits (P : State → Prop) (es : List PortEvent) (c : Prog → Prog) : Prop where
  whole : ∀ k s rest, P s → s.writeAnswers = List.replicate (writesIn es) .ok ++ rest →
    ∃ t, P t ∧ Sent s es rest t ∧ runProg (c k) s = runProg k t
  cut : ∀ j k s rest, j < writesIn es → P s → s.writeAnswers = List.replicate j .ok ++ .error :: rest →
    ∃ t, Sent s (cutAtWrite j es) rest t ∧ runProg (c k) s = finish .transportError t

/-- One part after another: a failing write lies in the first or in the second. -/
theorem Emits.comp {P : State → Prop} {es fs : List PortEvent} {c d : Prog → Prog} (hc : Emits P es c)
    (hd : Emits P fs d) : Emits P (es ++ fs) fun k => c (d k) where
  whole k s rest hs hw := by
    rw [writesIn_append, List.replicate_add, List.append_assoc] at hw
    obtain ⟨t, hPt, ht, hrun⟩ := hc.whole (d k) s _ hs hw
    obtain ⟨u, hPu, hu, hrun'⟩ := hd.whole k t rest hPt ht.writes
    exact ⟨u, hPu, ht.trans hu, hrun.trans hrun'⟩
  cut j k s rest hj hs hw := by
    rcases Nat.lt_or_ge j (writesIn es) with h | h
    · rw [cutAtWrite_append_left h]
      exact hc.cut j (d k) s rest h hs hw
    · obtain ⟨j, rfl⟩ := Nat.exists_eq_add_of_le h
      rw [List.replicate_add, List.append_assoc] at hw
      rw [writesIn_append] at hj
      obtain ⟨t, hPt, ht, hrun⟩ := hc.whole (d k) s _ hs hw
      obtain ⟨u, hu, hrun'⟩ := hd.cut j k t rest (Nat.lt_of_add_lt_add_left hj) hPt ht.writes
      rw [cutAtWrite_append_right]
      exact ⟨u, ht.trans hu, hrun.trans hrun'⟩

/-- A strobe is three writes of one frame, EN set in the middle one (41 R92). -/
theorem strobeFrames_eq (bl rs : Bool) (x : Byte) :
    strobeFrames bl rs x = [strobeByte false (frameOf bl rs x), strobeByte true (frameOf bl rs x),
      strobeByte false (frameOf bl rs x)] := by
  simp [strobeFrames, strobeByte, frameOf_add_enBit]

section
variable {p : Params} {a : Addr} {bl rs : Bool}

/-- `WriteFrame` while FRAME holds `f` (41 R91). -/
theorem emits_writeFrame (f : Byte) (en : Bool) :
    Emits (fun s => Drives p a bl rs s ∧ s.frame = f) (frameTrace p a (strobeByte en f)) (writeFrame en) where
  whole k s rest hs hw := by
    obtain ⟨⟨rfl, rfl, rfl, rfl, hd⟩, rfl⟩ := hs
    refine ⟨_, ?_, ?_, runProg_writeFrame en k s rest hw hd⟩
    · exact ⟨⟨rfl, rfl, rfl, rfl, hd⟩, rfl⟩
    · rfl
  cut j k s rest hj hs hw := by
    obtain ⟨⟨rfl, rfl, rfl, rfl, hd⟩, rfl⟩ := hs
    obtain rfl : j = 0 := Nat.lt_one_iff.mp hj
    refine ⟨_, ?_, runProg_writeFrame_error en k s rest hw⟩
    rfl

/-- `SendNibble(x)`: FRAME is composed, then it is written three times (41 R92). -/
theorem emits_sendNibble (x : Byte) :
    Emits (Drives p a bl rs) (framesTrace p a (strobeFrames bl rs x)) (sendNibble x) := by
  have hwrite (en : Bool) := emits_writeFrame (p := p) (a := a) (bl := bl) (rs := rs) (frameOf bl rs x) en
  have hcomposed {s : State} (hs : Drives p a bl rs s) : Drives p a bl rs { s with frame := frameOf s.bl s.rs x } ∧
      frameOf s.bl s.rs x = frameOf bl rs x := ⟨⟨hs.params, hs.addr, hs.bl, hs.rs, hs.hold⟩, by rw [hs.bl, hs.rs]⟩
  obtain ⟨whole, cut⟩ := (hwrite false).comp ((hwrite true).comp (hwrite false))
  rw [strobeFrames_eq]
  constructor
  · intro k s rest hs hw
    obtain ⟨t, ⟨hd, -⟩, h⟩ := whole k { s with frame := frameOf s.bl s.rs x } rest (hcomposed hs) hw
    exact ⟨t, hd, h⟩
  · intro j k s rest hj hs hw
    exact cut j k { s with frame := frameOf s.bl s.rs x } rest hj (hcomposed hs) hw

/-- The two nibbles of a byte, the high one first (41 R93, R94). -/
theorem emits_byte (b : Byte) :
    Emits (Drives p a bl rs) (framesTrace p a (byteFrames bl rs b)) fun k => sendNibble b (sendNibble (b <<< 4) k) := by
  rw [byteFrames, strobeFrames, frameOf_highNibble, framesTrace_append]
  exact (emits_sendNibble b).comp (emits_sendNibble (b <<< 4))

end

/-! ## SEND_NIBBLE, SEND_COMMAND, SEND_DATA (41 R95 to R97) -/

/-- A command that needs ADDR, writes flags only (`upd`), and then sends its frames. -/
theorem sendsFrames_of_emits {i : Instr} {n : Nat} {upd : State → State} {frames : State → List Byte} {c : Prog → Prog}
    (hi : needsAddr i = true) (hn : ∀ s, (frames s).length = n)
    (hupd : ∀ s, ∃ bl rs, upd s = { s with bl := bl, rs := rs })
    (hrun : ∀ s, runProg (progOf i) s = runProg (c (.complete .ok)) (upd s))
    (hc : ∀ s, Emits (Drives s.params s.addr (upd s).bl (upd s).rs) (framesTrace s.params s.addr (frames s)) c) :
    SendsFrames i n upd frames := by
  intro s rest
  have hready (hv : s.addrValid = true) : exec i s = .next (runProg (c (.complete .ok)) (upd s)) := by
    rw [exec_eq, if_neg (by simp [hv]), hrun]
  have hw : writesIn (framesTrace s.params s.addr (frames s)) = n := (writesIn_framesTrace _ _ _).trans (hn s)
  have hc := hc s
  obtain ⟨bl, rs, hu⟩ := hupd s
  rw [hu] at hc hready ⊢
  have hs (hd : s.delayHold = none) : Drives s.params s.addr bl rs { s with bl := bl, rs := rs } :=
    ⟨rfl, rfl, rfl, rfl, hd⟩
  refine ⟨hn s, fun hv ⟨ha, hd⟩ => ?_, fun k hk hv ⟨ha, hd⟩ => ?_, fun hv => ?_⟩
  · rw [← hw] at ha
    obtain ⟨t, -, ht, hr⟩ := hc.whole (.complete .ok) _ rest (hs hd) ha
    exact ⟨finish .ok t, by rw [hready hv, hr, runProg_complete], ht.settled_finish .ok⟩
  · rw [← hw] at hk
    obtain ⟨t, ht, hr⟩ := hc.cut k (.complete .ok) _ rest hk (hs hd) ha
    exact ⟨finish .transportError t, by rw [hready hv, hr], ht.settled_finish .transportError⟩
  · rw [exec_eq, if_pos ⟨hi, hv⟩]
    rfl

/-- Settles O17: the micro-program is one nibble and writes no flag (`emits_sendNibble`). -/
theorem sendNibbleStrobesOneNibble : Obligations.SendNibbleStrobesOneNibble := fun p =>
  sendsFrames_of_emits rfl (fun _ => rfl) (fun _ => ⟨_, _, rfl⟩) (fun _ => rfl) fun _ => emits_sendNibble p

/-- Settles O18: RS is cleared, then the two nibbles follow (`emits_byte`). -/
theorem sendCommandSendsTwoNibbles : Obligations.SendCommandSendsTwoNibbles := fun b =>
  sendsFrames_of_emits rfl (fun _ => rfl) (fun _ => ⟨_, _, rfl⟩) (fun _ => rfl) fun _ => emits_byte b

/-- Settles O19: RS is set, then the two nibbles follow (`emits_byte`). -/
theorem sendDataSendsTwoNibbles : Obligations.SendDataSendsTwoNibbles := fun b =>
  sendsFrames_of_emits rfl (fun _ => rfl) (fun _ => ⟨_, _, rfl⟩) (fun _ => rfl) fun _ => emits_byte b

/-! ## A byte bit by bit (41 R98) -/

theorem strobeByte_highBits (en bl rs : Bool) (p : Byte) :
    (strobeByte en (frameOf bl rs p)).extractLsb' 4 4 = p.extractLsb' 4 4 := by
  have hmask : p.extractLsb' 4 4 &&& 15#4 = p.extractLsb' 4 4 := BitVec.and_allOnes
  have hframe : (frameOf bl rs p).extractLsb' 4 4 = p.extractLsb' 4 4 := by
    cases bl <;> cases rs <;> simp [frameOf, blBit, rsBit, BitVec.extractLsb'_or, BitVec.extractLsb'_and, hmask]
  cases en with
  | false => exact hframe
  | true => simp [strobeByte, frameOf_add_enBit, BitVec.extractLsb'_or, hframe]

theorem strobeByte_enBit (en bl rs : Bool) (p : Byte) : (strobeByte en (frameOf bl rs p)).getLsbD 2 = en := by
  obtain ⟨-, hclear, -⟩ := frameComposition bl rs p
  cases en with
  | false => exact hclear
  | true => simp [strobeByte, frameOf_add_enBit]

/-- What a frame write carries: the high nibble of the payload, BL, EN, 0, RS (R67, R92). -/
theorem strobeByte_bits (en bl rs : Bool) (p : Byte) :
    (strobeByte en (frameOf bl rs p)).extractLsb' 4 4 = p.extractLsb' 4 4 ∧
      (strobeByte en (frameOf bl rs p)).getLsbD 3 = bl ∧ (strobeByte en (frameOf bl rs p)).getLsbD 2 = en ∧
      (strobeByte en (frameOf bl rs p)).getLsbD 1 = false ∧ (strobeByte en (frameOf bl rs p)).getLsbD 0 = rs := by
  have hkeep {i : Nat} (hi : i ≠ 2) := strobeByte_getLsbD (frameOf_clear bl rs p) en hi
  refine ⟨strobeByte_highBits en bl rs p, ?_, strobeByte_enBit en bl rs p, ?_, ?_⟩
  · rw [hkeep (by decide), frameOf_bl]
  · rw [hkeep (by decide), (frameOf_clear bl rs p).getLsbD_one]
  · rw [hkeep (by decide), frameOf_rs]

/-- The payload of the second nibble carries bits 3 to 0 of the byte (R93, R94). -/
theorem shiftLeft_highBits (c : Byte) : (c <<< 4).extractLsb' 4 4 = c.extractLsb' 0 4 := by
  revert c; decide

theorem byteFrames_sixFrames (bl rs : Bool) (c : Byte) : SixFrames (byteFrames bl rs c) bl rs c := by
  have hhigh (en : Bool) := strobeByte_bits en bl rs c
  have hlow (en : Bool) := strobeByte_bits en bl rs (c <<< 4)
  simp only [shiftLeft_highBits] at hlow
  refine ⟨rfl, fun j f h => ?_⟩
  rw [byteFrames, strobeFrames_eq, strobeFrames_eq, frameOf_highNibble] at h
  match j, h with
  | 0, h | 2, h => cases h; exact hhigh false
  | 1, h => cases h; exact hhigh true
  | 3, h | 5, h => cases h; exact hlow false
  | 4, h => cases h; exact hlow true

/-- Settles O20: the frames are `byteFrames`, read bit by bit (`byteFrames_sixFrames`). -/
theorem byteIsSentInSixFrames : Obligations.ByteIsSentInSixFrames := fun c _ _ hv ha =>
  ⟨⟨_, _, exec_sendCommand hv ha, byteFrames_sixFrames _ _ c, rfl⟩,
    ⟨_, _, exec_sendData hv ha, byteFrames_sixFrames _ _ c, rfl⟩⟩

end Sys2Proof.Machine

namespace Sys2Proof.Machine

/-! # PROOFS of the family 42_display_operations: INIT and its bring-up, text and numbers, display control

## Display control (42 R106 to R113) -/

/-- A command whose micro-program is `SendCommand` of a byte (41 R93). -/
theorem sendsFrames_of_sendCommand {i : Instr} {b : Byte} (hi : needsAddr i = true)
    (hp : progOf i = sendCommand b (.complete .ok)) :
    SendsFrames i 6 (fun s => { s with rs := false }) (fun s => byteFrames s.bl false b) :=
  sendsFrames_of_emits hi (fun _ => rfl) (fun _ => ⟨_, _, rfl⟩) (fun _ => by rw [hp]; rfl) fun _ => emits_byte b

/-- Settles O28: each of the five micro-programs is `SendCommand` of the command's byte. -/
theorem displayControlSendsItsByte : Obligations.DisplayControlSendsItsByte := by
  intro i b h
  simp only [List.mem_cons, Prod.mk.injEq, List.not_mem_nil, or_false] at h
  rcases h with ⟨rfl, rfl⟩ | ⟨rfl, rfl⟩ | ⟨rfl, rfl⟩ | ⟨rfl, rfl⟩ | ⟨rfl, rfl⟩ <;>
    exact sendsFrames_of_sendCommand rfl rfl

/-- Settles O29: BL is set and RS cleared, then the two nibbles of 0x00 follow (`emits_byte`). -/
theorem backlightOnPushesTheBit : Obligations.BacklightOnPushesTheBit :=
  sendsFrames_of_emits rfl (fun _ => rfl) (fun _ => ⟨_, _, rfl⟩) (fun _ => rfl) fun _ => emits_byte 0x00

/-- Settles O30: BL and RS are cleared, then the two nibbles of 0x00 follow (`emits_byte`). -/
theorem backlightOffPushesTheBit : Obligations.BacklightOffPushesTheBit :=
  sendsFrames_of_emits rfl (fun _ => rfl) (fun _ => ⟨_, _, rfl⟩) (fun _ => rfl) fun _ => emits_byte 0x00

/-- After reset a command that needs ADDR is turned away and ends; INIT and RESOLVE wait for their first answer. -/
theorem exec_reset_ne {i j : Instr} (hi : needsAddr i = true) (hj : needsAddr j = false) :
    exec i State.reset ≠ exec j State.reset := by
  have hwait : (runProg (progOf j) State.reset).seq = .busy := by
    cases j with
    | init a =>
      by_cases ha : a = 0
      · subst ha; rfl
      · rw [progOf, initProg, if_neg ha]; rfl
    | resolve => rfl
    | _ => cases hj
  rw [exec_eq, if_pos ⟨hi, rfl⟩, exec_eq, if_neg (by simp [hj])]
  intro h
  rw [← Host.Outcome.next.inj h] at hwait
  cases hwait

/-- What a command that needs ADDR and has it leaves in BL (10 R21). -/
theorem exec_bl {i : Instr} {s : State} (hi : needsAddr i = true) (hv : s.addrValid = true) :
    ∃ t, exec i s = .next t ∧ t.bl = blAfter i s.bl := by
  obtain ⟨t, _, _, ⟨he, -⟩, ⟨hbl, -⟩, -⟩ := hasEffects i s
  exact ⟨t, he, by rw [hbl, active_of_needsAddr hi, hv, if_pos rfl]⟩

/-- Commands that leave different values in BL differ where both have ADDR, and after reset where one does not need it. -/
theorem exists_exec_ne_of_blAfter {i j : Instr} (v : Bool) (hi : needsAddr i = true)
    (h : needsAddr j = true → blAfter j v ≠ blAfter i v) : ∃ s, exec i s ≠ exec j s := by
  cases hj : needsAddr j with
  | false => exact ⟨State.reset, exec_reset_ne hi hj⟩
  | true =>
    refine ⟨{ State.reset with addrValid := true, bl := v }, fun he => h hj ?_⟩
    obtain ⟨t, ht, hbl⟩ := exec_bl (s := { State.reset with addrValid := true, bl := v }) hi rfl
    obtain ⟨u, hu, hbl'⟩ := exec_bl (s := { State.reset with addrValid := true, bl := v }) hj rfl
    rw [← hbl, ← hbl', Host.Outcome.next.inj (hu.symm.trans (he.symm.trans ht))]

theorem blAfter_false {j : Instr} (hj : needsAddr j = true) (h : j ≠ .backlightOn) : blAfter j false = false := by
  cases j with
  | init => cases hj
  | backlightOn => exact absurd rfl h
  | _ => rfl

theorem blAfter_true {j : Instr} (h : j ≠ .backlightOff) : blAfter j true = true := by
  cases j with
  | backlightOff => exact absurd rfl h
  | _ => rfl

/-- Settles O31: the micro-programs are the same; a backlight command is told from the others by what it leaves in BL, or
by being turned away after reset (`exists_exec_ne_of_blAfter`). -/
theorem displayControlEqualsSendCommand : Obligations.DisplayControlEqualsSendCommand := by
  refine ⟨fun _ => ⟨rfl, rfl, rfl, rfl, rfl⟩, fun j => ⟨fun hne => ?_, fun hne => ?_⟩⟩
  · exact exists_exec_ne_of_blAfter false rfl fun hj => by rw [blAfter_false hj hne]; decide
  · exact exists_exec_ne_of_blAfter true rfl fun _ => by rw [blAfter_true hne]; decide

/-! ## The cursor and decimal text (42 R103, R105) -/

/-- Settles O26: addition of bytes is modulo 256. -/
theorem cursorByte : Obligations.CursorByte := by
  intro col row
  rw [cursor, BitVec.toNat_add]
  by_cases h : row = 0
  · rw [h]; rfl
  · rw [if_pos h, if_neg (show row.toNat ≠ 0 from fun h0 => h (BitVec.eq_of_toNat_eq h0))]; rfl

/-- The digits that the text of `n` has, from the most significant: those of the library's `Nat.digits`, and one digit for
the number 0 (42 R105). -/
def textDigits (n : Nat) : List Nat := if n = 0 then [0] else (Nat.digits 10 n).reverse

theorem textDigits_of_ne_zero {n : Nat} (h : n ≠ 0) : textDigits n = (Nat.digits 10 n).reverse := if_neg h

theorem textDigits_of_lt {n : Nat} (h : n < 10) : textDigits n = [n] := by
  rcases eq_or_ne n 0 with rfl | h0
  · rfl
  · rw [textDigits_of_ne_zero h0, Nat.digits_of_lt 10 n h0 h, List.reverse_singleton]

theorem textDigits_of_ge {n : Nat} (h : 10 ≤ n) : textDigits n = textDigits (n / 10) ++ [n % 10] := by
  rw [textDigits_of_ne_zero (by omega), textDigits_of_ne_zero (by omega), Nat.digits_def' (by decide) (by omega),
    List.reverse_cons]

theorem textDigits_lt {n d : Nat} (h : d ∈ textDigits n) : d < 10 := by
  rcases eq_or_ne n 0 with rfl | h0
  · rw [List.mem_singleton.mp h]; decide
  · rw [textDigits_of_ne_zero h0, List.mem_reverse] at h
    exact Nat.digits_lt_base (by decide) h

theorem textDigits_value (n : Nat) : (textDigits n).foldl (fun v d => 10 * v + d) 0 = n := by
  rcases eq_or_ne n 0 with rfl | h0
  · rfl
  · calc (textDigits n).foldl (fun v d => 10 * v + d) 0
        = Nat.ofDigits 10 (Nat.digits 10 n) := by
          simp [textDigits_of_ne_zero h0, Nat.ofDigits_eq_foldr, Nat.add_comm]
      _ = n := Nat.ofDigits_digits 10 n

theorem textDigits_no_leading_zero {n : Nat} (h : (textDigits n).head? = some 0) : textDigits n = [0] := by
  rcases eq_or_ne n 0 with rfl | h0
  · rfl
  · rw [textDigits_of_ne_zero h0, List.head?_reverse,
      List.getLast?_eq_getLast_of_ne_nil (Nat.digits_ne_nil_iff_ne_zero.mpr h0)] at h
    exact absurd (Option.some.inj h) (Nat.getLast_digit_ne_zero 10 h0)

theorem textDigits_ne_nil (n : Nat) : textDigits n ≠ [] := by
  rcases eq_or_ne n 0 with rfl | h0
  · exact List.cons_ne_nil 0 []
  · rw [textDigits_of_ne_zero h0, Ne, List.reverse_eq_nil_iff]
    exact Nat.digits_ne_nil_iff_ne_zero.mpr h0

/-- With digits enough the model's conversion gives them all (log 15). -/
theorem decDigits_eq (fuel : Nat) {n : Nat} (h : n < 10 ^ fuel) (hf : fuel ≠ 0) (acc : List Byte) :
    decDigits fuel n acc = (textDigits n).map digitByte ++ acc := by
  induction fuel generalizing n acc with
  | zero => exact absurd rfl hf
  | succ fuel ih =>
    rw [decDigits]
    split
    case isTrue hlt => rw [textDigits_of_lt hlt]; rfl
    case isFalse hge =>
      have hn : n / 10 < 10 ^ fuel := by rw [Nat.pow_succ] at h; omega
      have hfuel : fuel ≠ 0 := by rintro rfl; rw [Nat.zero_add, Nat.pow_one] at h; exact hge h
      rw [ih hn hfuel, textDigits_of_ge (Nat.le_of_not_lt hge), List.map_append, List.append_assoc]
      rfl

theorem decNat_natAbs (n : Word) : decNat n.toInt.natAbs = (textDigits n.toInt.natAbs).map digitByte := by
  have hlt : n.toInt.natAbs < 10 ^ 10 := by
    have hlow := BitVec.le_toInt n
    have hhigh := BitVec.toInt_lt (x := n)
    omega
  rw [decNat, decDigits_eq 10 hlt (by decide), List.append_nil]

/-- Settles O27: the digits are `textDigits` of the magnitude. -/
theorem decimalTextIsShortest : Obligations.DecimalTextIsShortest := by
  intro n
  refine ⟨textDigits n.toInt.natAbs, ?_, fun _ => textDigits_lt, textDigits_value _, textDigits_no_leading_zero,
    textDigits_ne_nil _, dec_length n⟩
  rw [dec, decNat_natAbs]
  split <;> rfl

/-! ## SHOW_STRING and SHOW_NUMBER (42 R102, R104) -/

theorem Emits.nil (P : State → Prop) : Emits P [] fun k => k where
  whole _ s rest hs hw := by
    obtain rfl : s.writeAnswers = rest := hw
    exact ⟨s, hs, .refl s, rfl⟩
  cut _ _ _ _ hj := absurd hj (Nat.not_lt_zero _)

theorem Emits.of_runProg_eq {P : State → Prop} {es : List PortEvent} {c d : Prog → Prog} (hc : Emits P es c)
    (h : ∀ k s, P s → runProg (d k) s = runProg (c k) s) : Emits P es d where
  whole k s rest hs hw := by
    rw [h k s hs]
    exact hc.whole k s rest hs hw
  cut j k s rest hj hs hw := by
    rw [h k s hs]
    exact hc.cut j k s rest hj hs hw

theorem setRs_eq {s : State} {r : Bool} (h : s.rs = r) : { s with rs := r } = s := by rw [← h]

section
variable {p : Params} {a : Addr} {bl r : Bool}

/-- `SendCommand` and `SendData` while RS has their value already (41 R93, R94). -/
theorem emits_setRs_byte (b : Byte) : Emits (Drives p a bl r) (framesTrace p a (byteFrames bl r b))
    fun k => .set (.rs r) (sendNibble b (sendNibble (b <<< 4) k)) :=
  (emits_byte b).of_runProg_eq fun _ _ hs => by rw [runProg_set, apply_rs, setRs_eq hs.rs]

theorem emits_sendCommand (b : Byte) :
    Emits (Drives p a bl false) (framesTrace p a (byteFrames bl false b)) (sendCommand b) := emits_setRs_byte b

/-- The bytes of a text, RS being set if there are any (42 R102). -/
theorem emits_sendText (text : List Byte) (h : text ≠ [] → r = true) :
    Emits (Drives p a bl r) (framesTrace p a (text.flatMap (byteFrames bl true))) (sendText text) := by
  induction text with
  | nil => exact .nil _
  | cons b text ih =>
    obtain rfl := h (List.cons_ne_nil b text)
    rw [List.flatMap_cons, framesTrace_append]
    exact (emits_setRs_byte b).comp (ih fun _ => rfl)

end

/-- The first byte of a text sets RS; an empty text leaves it clear (42 R102). -/
theorem runProg_sendText_setRs (text : List Byte) (k : Prog) {s : State} (hs : s.rs = false) :
    runProg (sendText text k) s = runProg (sendText text k) { s with rs := decide (1 ≤ text.length) } := by
  cases text with
  | nil => exact congrArg (runProg _) (setRs_eq hs).symm
  | cons => rfl

theorem writesIn_byteFrames (p : Params) (a : Addr) (bl rs : Bool) (b : Byte) :
    writesIn (framesTrace p a (byteFrames bl rs b)) = 6 := writesIn_framesTrace p a _

theorem writesIn_textFrames (p : Params) (a : Addr) (bl : Bool) (text : List Byte) :
    writesIn (framesTrace p a (text.flatMap (byteFrames bl true))) = 6 * text.length := by
  rw [writesIn_framesTrace]
  induction text with
  | nil => rfl
  | cons b text ih => rw [List.flatMap_cons, List.length_append, ih, List.length_cons, Nat.mul_succ, Nat.add_comm]; rfl

/-- The state in which the text of a SHOW_STRING begins: the cursor command sent, the write answers `ws` left, RS set if
there is a byte to send (42 R102). -/
def textStart (col row : Byte) (text : List Byte) (ws : List WriteAnswer) (s : State) : State :=
  { byteSent false (cursor col row) ws s with rs := decide (1 ≤ text.length) }

section
variable {s : State} {ws rest : List WriteAnswer} (col row : Byte) (text : List Byte)

theorem runProg_showString (ha : Answered s 6 ws) :
    runProg (showStringProg col row text) s = runProg (sendText text (.complete .ok)) (textStart col row text ws s) :=
  (runProg_byteSent ha).trans (runProg_sendText_setRs text _ rfl)

theorem sent_textStart : Sent { s with rs := decide (1 ≤ text.length) }
    (framesTrace s.params s.addr (byteFrames s.bl false (cursor col row))) ws (textStart col row text ws s) := rfl

/-- The text of a SHOW_STRING as a part of its micro-program, from `textStart` on. -/
theorem emits_text (s : State) : Emits (Drives s.params s.addr s.bl (decide (1 ≤ text.length)))
    (framesTrace s.params s.addr (text.flatMap (byteFrames s.bl true))) (sendText text) :=
  emits_sendText text fun h => decide_eq_true (List.length_pos_iff.mpr h)

theorem drives_textStart (hd : s.delayHold = none) :
    Drives s.params s.addr s.bl (decide (1 ≤ text.length)) (textStart col row text ws s) := ⟨rfl, rfl, rfl, rfl, hd⟩

/-- SHOW_STRING with every write answered. -/
theorem showString_answered (ha : Answered s (6 * (1 + text.length)) rest) :
    ∃ t, runProg (showStringProg col row text) s = finish .ok t ∧
      Sent { s with rs := decide (1 ≤ text.length) }
        (framesTrace s.params s.addr (stringFrames s.bl col row text)) rest t := by
  rw [Nat.add_comm] at ha
  have hrun := runProg_showString col row text ha.cons
  obtain ⟨t, -, ht, hrun'⟩ := (emits_text text s).whole (.complete .ok) _ rest (drives_textStart col row text ha.2)
    (by rw [writesIn_textFrames]; rfl)
  rw [stringFrames, framesTrace_append]
  exact ⟨t, hrun.trans hrun', (sent_textStart col row text).trans ht⟩

/-- SHOW_STRING with write `k` failing: in the cursor command, where RS is clear, or in the text, before which it is set. -/
theorem showString_fails {k : Nat} (hk : k < 6 * (1 + text.length)) (hf : FailsAt s k rest) :
    ∃ t, runProg (showStringProg col row text) s = finish .transportError t ∧
      Sent { s with rs := decide (6 ≤ k) }
        (cutAtWrite k (framesTrace s.params s.addr (stringFrames s.bl col row text))) rest t := by
  obtain ⟨hw, hd⟩ := hf
  have hcursor := writesIn_byteFrames s.params s.addr s.bl false (cursor col row)
  rw [stringFrames, framesTrace_append]
  rcases Nat.lt_or_ge k 6 with h | h
  · obtain ⟨t, ht, hrun⟩ := (emits_byte (cursor col row)).cut k (sendText text (.complete .ok)) { s with rs := false }
      rest (hcursor ▸ h) ⟨rfl, rfl, rfl, rfl, hd⟩ hw
    refine ⟨t, hrun, ?_⟩
    rwa [cutAtWrite_append_left (hcursor ▸ h), decide_eq_false (Nat.not_le_of_lt h)]
  · obtain ⟨k, rfl⟩ := Nat.exists_eq_add_of_le h
    have hset : decide (6 ≤ 6 + k) = decide (1 ≤ text.length) := by rw [decide_eq_decide]; omega
    rw [List.replicate_add, List.append_assoc] at hw
    obtain ⟨t, ht, hrun⟩ := (emits_text text s).cut k (.complete .ok) _ rest (by rw [writesIn_textFrames]; omega)
      (drives_textStart col row text hd) rfl
    refine ⟨t, (runProg_showString col row text ⟨hw, hd⟩).trans hrun, ?_⟩
    rw [hset, ← hcursor, cutAtWrite_append_right]
    exact (sent_textStart col row text).trans ht

end

/-- A command that needs ADDR and has the micro-program of SHOW_STRING. -/
theorem showsText_of_progOf {i : Instr} {col row : Byte} {text : List Byte} (hi : needsAddr i = true)
    (hp : progOf i = showStringProg col row text) : ShowsText i col row text := by
  intro s rest
  have hready (hv : s.addrValid = true) : exec i s = .next (runProg (showStringProg col row text) s) := by
    rw [exec_eq, if_neg (by simp [hv]), hp]
  refine ⟨fun hv ha => ?_, fun k hk hv hf => ?_, fun hv => ?_⟩
  · obtain ⟨t, hrun, ht⟩ := showString_answered col row text ha
    exact ⟨_, (hready hv).trans (congrArg _ hrun), ht.settled_finish .ok⟩
  · obtain ⟨t, hrun, ht⟩ := showString_fails col row text hk hf
    exact ⟨_, (hready hv).trans (congrArg _ hrun), ht.settled_finish .transportError⟩
  · rw [exec_eq, if_pos ⟨hi, hv⟩]
    rfl

/-- Settles O24: the cursor command, then the text (`showsText_of_progOf`). -/
theorem showStringSendsCursorThenText : Obligations.ShowStringSendsCursorThenText := fun _ _ _ =>
  showsText_of_progOf rfl rfl

/-- Settles O25: the micro-program is the one of SHOW_STRING of the decimal text. -/
theorem showNumberShowsItsDecimalText : Obligations.ShowNumberShowsItsDecimalText := fun _ _ _ =>
  ⟨showsText_of_progOf rfl rfl, fun _ => rfl⟩

/-! ## The bring-up of INIT (42 R100, R101) -/

theorem emits_sleep {p : Params} {a : Addr} {bl r : Bool} (d : Delay) :
    Emits (Drives p a bl r) [.delay (delayMs p d)] (.sleep d) where
  whole k s rest hs hw := by
    obtain ⟨rfl, rfl, rfl, rfl, hd⟩ := hs
    obtain rfl : s.writeAnswers = rest := hw
    exact ⟨emit (.delay (delayMs s.params d)) s, ⟨rfl, rfl, rfl, rfl, hd⟩, rfl, runProg_sleep d k s hd⟩
  cut _ _ _ _ hj := absurd hj (Nat.not_lt_zero _)

/-- The frames of a bring-up byte and of a bring-up nibble, BL set and RS clear. -/
theorem byteFrames_bringUp :
    byteFrames true false 0x33 = [0x38, 0x3C, 0x38, 0x38, 0x3C, 0x38] ∧
    strobeFrames true false 0x30 = [0x38, 0x3C, 0x38] ∧
    strobeFrames true false 0x20 = [0x28, 0x2C, 0x28] ∧
    byteFrames true false 0x28 = [0x28, 0x2C, 0x28, 0x88, 0x8C, 0x88] ∧
    byteFrames true false 0x0C = [0x08, 0x0C, 0x08, 0xC8, 0xCC, 0xC8] ∧
    byteFrames true false 0x06 = [0x08, 0x0C, 0x08, 0x68, 0x6C, 0x68] ∧
    byteFrames true false 0x01 = [0x08, 0x0C, 0x08, 0x18, 0x1C, 0x18] := by decide

/-- INIT that knows its address makes the trace of R101, and completes after it. -/
theorem emits_bringUp (p : Params) (a : Addr) : ∃ c, Emits (Drives p a true false) (bringUpTrace p a) c ∧
    ∀ s, runProg (initWith a) s = runProg (c (.complete .ok)) (initReady a s) := by
  have cmd (b : Byte) := emits_sendCommand (p := p) (a := a) (bl := true) b
  have nib (x : Byte) := emits_sendNibble (p := p) (a := a) (bl := true) (rs := false) x
  have sleep := emits_sleep (p := p) (a := a) (bl := true) (r := false) .init
  have h := (cmd 0x33).comp <| sleep.comp <| (nib 0x30).comp <| sleep.comp <| (nib 0x20).comp <| sleep.comp <|
    (cmd 0x28).comp <| (cmd 0x0C).comp <| (cmd 0x06).comp (cmd 0x01)
  obtain ⟨h33, h30, h20, h28, h0C, h06, h01⟩ := byteFrames_bringUp
  rw [h33, h30, h20, h28, h0C, h06, h01] at h
  simp only [bringUpTrace, List.append_assoc]
  exact ⟨_, h, fun _ => rfl⟩

theorem writesIn_delay (ms : Nat) : writesIn [.delay ms] = 0 := rfl

theorem writesIn_bringUpTrace (p : Params) (a : Addr) : writesIn (bringUpTrace p a) = 36 := by
  simp only [bringUpTrace, writesIn_append, writesIn_framesTrace, writesIn_delay]
  rfl

section
variable {s t : State} {es fs : List PortEvent} {ws rest : List WriteAnswer} {rs : List ReadAnswer}

theorem Probes.trans_sent (h : Probes s es ws rs t) {u : State} (k : Sent t fs rest u) :
    Probes s (es ++ fs) rest rs u := by
  rw [Sent, h.reads] at k
  exact h.trans k

/-- A command that completes after the events has ended as the statements on results say (`ended`). -/
theorem Probes.settled_finish (h : Probes s es ws rs t) (st : Status) : settled (finish st t) =
    settled (ended st { s with writeAnswers := ws, readAnswers := rs, log := s.log ++ es }) :=
  congrArg (ended st) h

theorem probes_initReady (h : Probes s es ws rs t) (a : Addr) :
    Probes (initReady a s) es ws rs (initReady a t) := congrArg (initReady a) h

theorem drives_initReady (h : Probes s es ws rs t) (hd : s.delayHold = none) (a : Addr) :
    Drives s.params a true false (initReady a t) :=
  ⟨h.params, rfl, rfl, rfl, (congrArg (fun v : State => v.delayHold) h).trans hd⟩

/-- INIT after the probes `es`, which gave the address `a`, with every write of the bring-up answered (42 R100). -/
theorem initWith_answered (a : Addr) (h : Probes s es (List.replicate 36 .ok ++ rest) rs t) (hd : s.delayHold = none) :
    settled (runProg (initWith a) t) = settled (ended .ok
      { initReady a s with
        writeAnswers := rest
        readAnswers := rs
        log := s.log ++ (es ++ bringUpTrace s.params a) }) := by
  obtain ⟨c, hc, hrun⟩ := emits_bringUp s.params a
  obtain ⟨u, -, hu, hrun'⟩ := hc.whole (.complete .ok) _ rest (drives_initReady h hd a)
    (by rw [(probes_initReady h a).writes, writesIn_bringUpTrace])
  rw [hrun, hrun']
  exact ((probes_initReady h a).trans_sent hu).settled_finish .ok

/-- INIT after the probes `es`, which gave the address `a`, with write `k` of the bring-up failing (42 R100). -/
theorem initWith_fails (a : Addr) {k : Nat} (hk : k < 36)
    (h : Probes s es (List.replicate k .ok ++ .error :: rest) rs t) (hd : s.delayHold = none) :
    settled (runProg (initWith a) t) = settled (ended .transportError
      { initReady a s with
        writeAnswers := rest
        readAnswers := rs
        log := s.log ++ (es ++ cutAtWrite k (bringUpTrace s.params a)) }) := by
  obtain ⟨c, hc, hrun⟩ := emits_bringUp s.params a
  obtain ⟨u, hu, hrun'⟩ := hc.cut k (.complete .ok) _ rest (by rwa [writesIn_bringUpTrace]) (drives_initReady h hd a)
    (probes_initReady h a).writes
  rw [hrun, hrun']
  exact ((probes_initReady h a).trans_sent hu).settled_finish .transportError

end

theorem exec_init_of_ne_zero {a : Addr} (h : a ≠ 0) (s : State) :
    exec (.init a) s = .next (runProg (initWith a) { s with addrValid := false }) := by
  rw [exec_eq, progOf, initProg, if_neg h]
  rfl

theorem exec_init_zero (s : State) :
    exec (.init 0) s = .next (runProg (resolver initWith addressNotFound) { s with addrValid := false }) :=
  exec_eq _ s

theorem initExplicit (a : Addr) : InitExplicit a := by
  intro s rest ha
  have hrefl {ws : List WriteAnswer} (hw : s.writeAnswers = ws) :
      Probes { s with addrValid := false } [] ws s.readAnswers { s with addrValid := false } := hw ▸ .refl _
  refine ⟨fun ⟨hw, hd⟩ => ?_, fun k hk ⟨hw, hd⟩ => ?_⟩
  · have hends := initWith_answered a (hrefl hw) hd
    exact ⟨_, exec_init_of_ne_zero ha s, hends⟩
  · have hends := initWith_fails a hk (hrefl hw) hd
    exact ⟨_, exec_init_of_ne_zero ha s, hends⟩

theorem initAutodetect : InitAutodetect := by
  intro s qs q wrest rrest hon
  refine ⟨fun hn hq hd hr => ⟨fun hw => ?_, fun k hk hw => ?_⟩, fun hn hw hr => ?_, fun hn hp hq hw hr => ?_⟩
  · obtain ⟨t, ht, hrun⟩ := resolver_of_last (found := initWith) (k := addressNotFound)
      (s := { s with addrValid := false }) hon hn (outcome_of_accepts _ hq) nofun hw hr
    have hends := initWith_answered (candidateAt qs.length) ht hd
    rw [← List.append_assoc] at hends
    exact ⟨_, (exec_init_zero s).trans (congrArg _ hrun), hends⟩
  · obtain ⟨t, ht, hrun⟩ := resolver_of_last (found := initWith) (k := addressNotFound)
      (s := { s with addrValid := false }) hon hn (outcome_of_accepts _ hq) nofun hw hr
    have hends := initWith_fails (candidateAt qs.length) hk ht hd
    rw [← List.append_assoc] at hends
    exact ⟨_, (exec_init_zero s).trans (congrArg _ hrun), hends⟩
  · obtain ⟨t, ht, hrun⟩ := resolver_of_scansOn (found := initWith) (k := addressNotFound)
      (s := { s with addrValid := false }) hon hn hw hr
    exact ⟨_, (exec_init_zero s).trans (congrArg _ hrun),
      congrArg (fun v : State => ended .addressNotFound { v with resultAddr := 0 }) ht⟩
  · obtain ⟨t, ht, hrun⟩ := resolver_of_last (found := initWith) (k := addressNotFound)
      (s := { s with addrValid := false }) hon hn (outcome_of_errs _ hp hq) nofun hw hr
    exact ⟨_, (exec_init_zero s).trans (congrArg _ hrun), ht.settled_finish .transportError⟩

/-- Settles O22: the address step and, after it, the bring-up (`initWith_answered`, `initWith_fails`). -/
theorem initRunsTheBringUp : Obligations.InitRunsTheBringUp := ⟨initExplicit, initAutodetect⟩

/-! ## The cost of INIT (42 R101, 70 R146) -/

/-- What some events cost: one-byte writes, bus transactions, delays, and the milliseconds these ask for. -/
def cost (es : List PortEvent) : Nat × Nat × Nat × Nat :=
  ((es.filterMap PortEvent.frame?).length, (es.filterMap PortEvent.target?).length, (delaysIn es).length, (delaysIn es).sum)

theorem cost_append (es fs : List PortEvent) : cost (es ++ fs) = cost es + cost fs := by
  simp [cost, List.filterMap_append]

theorem bringUpCosts_iff (k : Nat) (es : List PortEvent) : BringUpCosts k es ↔ cost es = (36, 36 + 4 * k, 39, 51) := by
  simp [BringUpCosts, cost]

theorem cost_frameTrace (a : Addr) (f : Byte) : cost (frameTrace Params.default a f) = (1, 1, 1, 1) := rfl

theorem cost_framesTrace (a : Addr) (fs : List Byte) :
    cost (framesTrace Params.default a fs) = (fs.length, fs.length, fs.length, fs.length) := by
  induction fs with
  | nil => rfl
  | cons f fs ih =>
    rw [framesTrace, List.flatMap_cons, cost_append, cost_frameTrace, ← framesTrace, ih]
    simp [Nat.add_comm]

theorem cost_initDelay : cost [.delay Params.default.initMs] = (0, 0, 1, 5) := rfl

theorem cost_bringUpTrace (a : Addr) : cost (bringUpTrace Params.default a) = (36, 36, 39, 51) := by
  simp only [bringUpTrace, cost_append, cost_framesTrace, cost_initDelay]
  rfl

theorem cost_response (w : Word) : cost [.response w] = (0, 0, 0, 0) := rfl

/-- An answered probe is four transactions, none of a single byte with the default widths (30 R71). -/
theorem cost_probe (a : Addr) {q : ProbeRun} (h : q.errs = false) : cost (q.trace Params.default a) = (0, 4, 0, 0) := by
  cases q with
  | whole r1 r2 => rfl
  | firstWriteErrs | firstReadErrs | secondWriteErrs | secondReadErrs => cases h

theorem cost_scanTrace {as : List Addr} {qs : List ProbeRun} (hn : qs.length ≤ as.length)
    (h : ∀ q ∈ qs, q.errs = false) : cost (scanTrace Params.default as qs) = (0, 4 * qs.length, 0, 0) := by
  induction qs generalizing as with
  | nil => rw [scanTrace_no_probe]; rfl
  | cons q qs ih =>
    obtain ⟨a, as, rfl⟩ := List.exists_cons_of_length_pos (Nat.lt_of_lt_of_le (Nat.succ_pos _) hn)
    obtain ⟨hq, h⟩ := List.forall_mem_cons.mp h
    rw [scanTrace, cost_append, cost_probe a hq, ih (Nat.le_of_succ_le_succ hn) h]
    simp [Nat.mul_succ, Nat.add_comm]

theorem errs_of_accepts {q : ProbeRun} (h : q.accepts = true) : q.errs = false := by
  cases q with
  | whole r1 r2 => rfl
  | firstWriteErrs | firstReadErrs | secondWriteErrs | secondReadErrs => cases h

/-- Of states that agree when settled, what does not look at the registers put aside agrees. -/
theorem eq_of_settled {α : Type} {t u : State} (f : State → α) (hf : ∀ v, f (settled v) = f v)
    (h : settled t = settled u) : f t = f u := by
  rw [← hf t, h, hf u]

/-- An INIT that has ended with OK after the probes `es` of a scan and the bring-up. -/
theorem bringUpCosts_of_ended {k : Nat} {a : Addr} {s t u : State} {es : List PortEvent}
    (h : settled t = settled (ended .ok u)) (hu : u.log = s.log ++ es ++ bringUpTrace Params.default a)
    (he : cost es = (0, 4 * k, 0, 0)) :
    ∃ fs, t.seq = .idle ∧ t.status = Status.ok.code ∧ t.log = s.log ++ fs ∧ BringUpCosts k fs := by
  obtain ⟨w, hlog⟩ : ∃ w, t.log = u.log ++ [.response w] := ⟨_, eq_of_settled State.log (fun _ => rfl) h⟩
  refine ⟨es ++ bringUpTrace Params.default a ++ [.response w], eq_of_settled State.seq (fun _ => rfl) h,
    eq_of_settled State.status (fun _ => rfl) h, ?_, ?_⟩
  · rw [hlog, hu, ← List.append_assoc, ← List.append_assoc]
  · rw [bringUpCosts_iff, cost_append, cost_append, he, cost_bringUpTrace, cost_response]
    simp [Nat.add_comm]

/-- Settles O23: the traces that INIT is known to make (`initRunsTheBringUp`), and what they cost. -/
theorem bringUpCost : Obligations.BringUpCost := by
  refine ⟨fun a s rest ha hp hans => ?_, fun s qs q wrest rrest hp hd hn hqs hq hw hr => ?_⟩
  · obtain ⟨hwhole, -⟩ := initExplicit a s rest ha
    obtain ⟨t, ht, hset⟩ := hwhole hans
    rw [hp] at hset
    obtain ⟨fs, h⟩ := bringUpCosts_of_ended (k := 0) (s := s) (es := []) hset (by rw [List.append_nil]) rfl
    exact ⟨t, fs, ht, h⟩
  · have hon : scansOn s.params qs := fun p hp => (hqs p hp).imp_right fun herr _ => herr
    have herrs : ∀ p ∈ qs ++ [q], p.errs = false := by
      simp only [List.mem_append, List.mem_singleton]
      rintro p (h | rfl)
      · exact (hqs p h).2
      · exact errs_of_accepts hq
    have hlen : (qs ++ [q]).length = qs.length + 1 := List.length_append
    obtain ⟨hfound, -⟩ := initAutodetect s qs q wrest rrest hon
    obtain ⟨hwhole, -⟩ := hfound hn hq hd hr
    obtain ⟨t, ht, hset⟩ := hwhole hw
    rw [hp] at hset
    obtain ⟨fs, h⟩ := bringUpCosts_of_ended (k := qs.length + 1) (s := s) hset rfl
      (by rw [cost_scanTrace (hlen ▸ hn) herrs, hlen])
    exact ⟨t, fs, ht, h⟩

end Sys2Proof.Machine

namespace Sys2Proof.Machine

/-! # PROOFS of the family 60_exceptions: the two added statuses, and a transport that does not answer

## NOT_INITIALIZED and ILLEGAL_COMMAND (60 R118, R120) -/

theorem ended_eq_finish (st : Status) (s : State) : ended st s = finish st s := rfl

theorem exec_of_addr_invalid {i : Instr} {s : State} (hi : needsAddr i = true) (hv : s.addrValid = false) :
    exec i s = .next (ended .notInitialized s) := by
  rw [exec_eq, if_pos ⟨hi, hv⟩, ended_eq_finish]

/-- An illegal command word is rejected whatever its operand words are (30 R65, R66). -/
theorem decodeCommand_of_illegal {w : Word} (h : illegalByFields w = true) (ops : List Word) :
    ∃ r, decodeCommand w ops = .reject r := by
  cases hd : decodeCommand w ops with
  | instr i =>
    rw [legal_of_decodeCommand hd] at h
    cases h
  | reject r => exact ⟨r, rfl⟩

theorem step_of_illegal {s t : State} (hr : s.resetPin = false) (hs : s.seq = .idle) (hf : fetch s = .command t)
    (h : illegalByFields t.cmd = true) : step s = .next (ended .illegalCommand t) := by
  obtain ⟨r, hd⟩ := decodeCommand_of_illegal h t.opnd
  simp [step, hr, hs, hf, execLatched, hd, illegalCommand, ended_eq_finish]

/-- Settles O6: the readiness check (`exec_of_addr_invalid`), and an illegal word in both ways of acceptance
(`step_of_illegal`), its operand words taken by `fetchOperands_whole`. -/
theorem addedStatusesDoNothingElse : Obligations.AddedStatusesDoNothingElse := by
  refine ⟨fun i s => exec_of_addr_invalid, ?_, ?_⟩
  · rintro s w ops rest ⟨hr, hs, ha⟩ hw hn hill
    exact step_of_illegal hr hs ((fetch_of_word ha hw).trans (fetchOperands_whole rfl hn)) hill
  · intro s ops rest hr hs ha hw hn hill
    exact step_of_illegal hr hs ((fetch_of_accepting ha).trans (fetchOperands_whole hw hn)) hill

/-! ## A transport that does not answer (60 R124) -/

/-- The request is a bus transaction, and the transport has no answer to it yet (00_scope.md R8). -/
def Request.Unanswered (s : State) : Request → Prop
  | .write _ _ => s.writeAnswers = []
  | .read _ => s.readAnswers = []
  | .delay _ => False

/-- A micro-program that is at an unanswered transaction gets no further and changes nothing. -/
theorem runProg_of_unanswered {s : State} {p : Prog} {r : Request} (hp : requestOf s p = some r)
    (h : r.Unanswered s) : runProg p s = waitAt p s := by
  cases p with
  | complete _ | set _ _ | compose _ _ => cases hp
  | frameWrite en k =>
    cases hp
    exact runProg_frameWrite_wait en k h
  | sleep d k =>
    cases hp
    exact h.elim
  | probe q acc rej =>
    have hq : Machine.Unanswered s q := by cases q <;> cases hp <;> exact h
    rw [runProg, probeFrom_unanswered hq]

theorem waitAt_eq_self {s : State} (hs : s.seq = .busy) : waitAt s.prog s = s := by
  rw [waitAt, ← hs]

theorem step_of_unanswered {s : State} {r : Request} (hs : s.seq = .busy) (hreset : s.resetPin = false)
    (hp : pendingRequest s = some r) (h : r.Unanswered s) : step s = .next s := by
  have hq : requestOf s s.prog = some r := by simpa [pendingRequest, hs] using hp
  simp [step, hreset, hs, resume, runProg_of_unanswered hq h, waitAt_eq_self hs]

theorem step_of_reset {s : State} (h : s.resetPin = true) : step s = .next (takeReset s) := if_pos h

/-- Settles O10: the wait is a fixed point of the step (`step_of_unanswered`), and a reset ends it (`step_of_reset`). -/
theorem unansweredTransactionKeepsTheBridgeBusy : Obligations.UnansweredTransactionKeepsTheBridgeBusy := by
  intro s hs hun
  obtain ⟨r, hp, h⟩ : ∃ r, pendingRequest s = some r ∧ r.Unanswered s := by
    rcases hun with ⟨⟨a, bs, hp⟩, h⟩ | ⟨⟨a, hp⟩, h⟩
    · exact ⟨.write a bs, hp, h⟩
    · exact ⟨.read a, hp, h⟩
  exact ⟨fun hr => step_of_unanswered hs hr hp h, fun hr => ⟨takeReset s, step_of_reset hr, rfl, rfl⟩⟩

end Sys2Proof.Machine

namespace Sys2Proof.Machine

/-! # PROOFS of the family 70_reset_and_hazards: strobes in order, a reset in mid-command, an IDLE bridge

## Strobes (41 R92, 70 R138) -/

/-- The frames that a strobe of the frame `f` writes (41 R92). -/
def strobe (f : Byte) : List Byte := [f, f ||| 0x04#8, f]

/-- The frames written among the events are a beginning of whole strobes, of frames with bits 2 and 1 clear (70 R138). -/
def Strobed (es : List PortEvent) : Prop :=
  ∃ fs : List Byte, (∀ f ∈ fs, FrameClear f) ∧ framesIn es <+: fs.flatMap strobe

/-- The record grew from `s` to `r` by events that are strobed. -/
def AddsStrobes (s r : State) : Prop := ∃ es, r.log = s.log ++ es ∧ Strobed es

theorem strobed_of_framesIn_nil {es : List PortEvent} (h : framesIn es = []) : Strobed es :=
  ⟨[], by simp, by rw [h]; exact List.nil_prefix⟩

theorem strobed_of_no_write {es : List PortEvent} (h : ∀ a bs r, PortEvent.write a bs r ∉ es) : Strobed es := by
  refine strobed_of_framesIn_nil (List.filterMap_eq_nil_iff.mpr fun e he => ?_)
  cases e with
  | write a bs r => exact absurd he (h a bs r)
  | read | delay | response => rfl

/-- Whole strobes before strobed events. -/
theorem Strobed.prepend {es es' : List PortEvent} {fs : List Byte} (h : Strobed es')
    (he : framesIn es = fs.flatMap strobe) (hfs : ∀ f ∈ fs, FrameClear f) : Strobed (es ++ es') := by
  obtain ⟨gs, hgs, hpre⟩ := h
  refine ⟨fs ++ gs, List.forall_mem_append.mpr ⟨hfs, hgs⟩, ?_⟩
  rw [framesIn_append, he, List.flatMap_append]
  exact (List.prefix_append_right_inj _).mpr hpre

/-- What `AddsStrobes` says of the events that are known to have entered the record. -/
theorem AddsStrobes.strobed {s r : State} {es : List PortEvent} (h : AddsStrobes s r) (hl : r.log = s.log ++ es) :
    Strobed es := by
  obtain ⟨es', hl', hes⟩ := h
  rwa [List.append_cancel_left (hl.symm.trans hl')]

/-! ## The frames a part of a micro-program writes, whatever the transport answers -/

/-- The part `c` of a micro-program, run while FRAME holds `f`, writes the frames `bs`: all of them, after which the rest
follows with FRAME unchanged; or a beginning of them, and the run stops there. -/
def Writes (f : Byte) (bs : List Byte) (c : Prog → Prog) : Prop :=
  ∀ k s, s.frame = f → ∃ es t, t.log = s.log ++ es ∧
    (framesIn es = bs ∧ t.frame = f ∧ runProg (c k) s = runProg k t ∨ framesIn es <+: bs ∧ runProg (c k) s = t)

theorem Writes.comp {f : Byte} {bs bs' : List Byte} {c d : Prog → Prog} (hc : Writes f bs c) (hd : Writes f bs' d) :
    Writes f (bs ++ bs') fun k => c (d k) := by
  intro k s hs
  obtain ⟨es, t, hl, ⟨hes, ht, hrun⟩ | ⟨hes, hrun⟩⟩ := hc (d k) s hs
  · obtain ⟨es', u, hl', ho⟩ := hd k t ht
    refine ⟨es ++ es', u, by rw [hl', hl, List.append_assoc], ?_⟩
    rw [framesIn_append, hes, hrun]
    exact ho.imp (fun ⟨hes', h⟩ => ⟨by rw [hes'], h⟩)
      fun ⟨hes', h⟩ => ⟨(List.prefix_append_right_inj bs).mpr hes', h⟩
  · exact ⟨es, t, hl, .inr ⟨hes.trans (List.prefix_append bs bs'), hrun⟩⟩

theorem writes_sleep (f : Byte) (d : Delay) : Writes f [] (.sleep d) := by
  intro k s hs
  rcases sleepFor_cases (delayMs s.params d) s with ⟨hh, -⟩ | ⟨h, hh, e⟩
  · exact ⟨[], _, (Follows.waitAt (.sleep d k) s).log, .inr ⟨List.nil_prefix, runProg_sleep_held d k s hh⟩⟩
  · exact ⟨_, _, (Follows.delay (delayMs s.params d) hh).log, .inl ⟨rfl, hs, by rw [runProg, e]⟩⟩

/-- A write that errs is made too, and the run stops after it (41 R91). -/
theorem writes_frameWrite (f : Byte) (en : Bool) : Writes f [strobeByte en f] (.frameWrite en) := by
  rintro k s rfl
  rcases hw : s.writeAnswers with _ | ⟨_ | _, rest⟩
  · exact ⟨[], _, (Follows.waitAt (.frameWrite en k) s).log,
      .inr ⟨List.nil_prefix, runProg_frameWrite_wait en k hw⟩⟩
  · exact ⟨_, _, (Follows.write s.addr [strobeByte en s.frame] hw).log,
      .inl ⟨rfl, rfl, runProg_frameWrite_ok en k hw⟩⟩
  · exact ⟨_, _, ((Follows.write s.addr [strobeByte en s.frame] hw).trans (.finish .transportError _)).log,
      .inr ⟨List.prefix_rfl, runProg_frameWrite_error en k hw⟩⟩

theorem writes_writeFrame (f : Byte) (en : Bool) : Writes f [strobeByte en f] (writeFrame en) :=
  (writes_frameWrite f en).comp (writes_sleep f .settle)

/-- The three frame writes of a nibble, FRAME being composed before them, are one strobe (41 R92). -/
theorem writes_strobe (bl rs : Bool) (p : Byte) : Writes (frameOf bl rs p) (strobe (frameOf bl rs p))
    fun k => writeFrame false (writeFrame true (writeFrame false k)) := by
  have hwrite := writes_writeFrame (frameOf bl rs p)
  rw [show strobe (frameOf bl rs p) = _ from strobeFrames_eq bl rs p]
  exact (hwrite false).comp ((hwrite true).comp (hwrite false))

/-- A part of a micro-program that writes whole strobes, and a rest that does. -/
theorem Writes.addsStrobes {f : Byte} {fs : List Byte} {c : Prog → Prog} (hc : Writes f (fs.flatMap strobe) c)
    (hfs : ∀ f ∈ fs, FrameClear f) {k : Prog} (hk : ∀ t, AddsStrobes t (runProg k t)) {s : State} (hs : s.frame = f) :
    AddsStrobes s (runProg (c k) s) := by
  obtain ⟨es, t, hl, ⟨hes, -, hrun⟩ | ⟨hes, hrun⟩⟩ := hc k s hs
  · obtain ⟨es', hl', hes'⟩ := hk t
    exact ⟨es ++ es', by rw [hrun, hl', hl, List.append_assoc], hes'.prepend hes hfs⟩
  · exact ⟨es, by rw [hrun, hl], fs, hfs, hes⟩

/-! ## Micro-programs that write frames by whole nibbles only -/

/-- A micro-program without probes that writes frames in `SendNibble` only (41 R92). -/
inductive SendsNibbles : Prog → Prop where
  | complete (st : Status) : SendsNibbles (.complete st)
  | set (w : RegWrite) {k : Prog} : SendsNibbles k → SendsNibbles (.set w k)
  | sleep (d : Delay) {k : Prog} : SendsNibbles k → SendsNibbles (.sleep d k)
  | nibble (p : Byte) {k : Prog} : SendsNibbles k → SendsNibbles (sendNibble p k)

namespace SendsNibbles

/-- Such a micro-program writes strobes in order, whatever the transport answers (70 R138). -/
theorem addsStrobes {p : Prog} (h : SendsNibbles p) (s : State) : AddsStrobes s (runProg p s) := by
  induction h generalizing s with
  | complete st => exact ⟨_, rfl, strobed_of_framesIn_nil rfl⟩
  | set w _ ih =>
    have hl : (w.apply s).log = s.log := by cases w <;> rfl
    rw [AddsStrobes, ← hl]
    exact ih (w.apply s)
  | sleep d _ ih => exact (writes_sleep s.frame d).addsStrobes (fs := []) (by simp) ih rfl
  | nibble p _ ih =>
    exact (writes_strobe s.bl s.rs p).addsStrobes (fs := [frameOf s.bl s.rs p])
      (by simpa using frameOf_clear s.bl s.rs p) ih (s := { s with frame := frameOf s.bl s.rs p }) rfl

variable {k : Prog}

theorem command (b : Byte) (h : SendsNibbles k) : SendsNibbles (sendCommand b k) :=
  .set _ (.nibble _ (.nibble _ h))

theorem data (b : Byte) (h : SendsNibbles k) : SendsNibbles (sendData b k) :=
  .set _ (.nibble _ (.nibble _ h))

theorem text (bs : List Byte) (h : SendsNibbles k) : SendsNibbles (sendText bs k) := by
  induction bs with
  | nil => exact h
  | cons b bs ih => exact ih.data b

theorem showString (col row : Byte) (bs : List Byte) : SendsNibbles (showStringProg col row bs) :=
  ((complete .ok).text bs).command _

theorem initWith (a : Addr) : SendsNibbles (initWith a) :=
  .set _ <| .set _ <| .set _ <| .set _ <| .set _ <| .command _ <| .sleep _ <| .nibble _ <| .sleep _ <| .nibble _ <|
    .sleep _ <| .command _ <| .command _ <| .command _ <| .command _ <| .complete .ok

/-- Every command but those that scan sends nibbles only. -/
theorem progOf {i : Instr} (hr : i ≠ .resolve) (h0 : i ≠ .init 0) : SendsNibbles (progOf i) := by
  cases i with
  | init a =>
    have ha : a ≠ 0 := by rintro rfl; exact h0 rfl
    rw [Machine.progOf, initProg, if_neg ha]
    exact .set _ (.initWith a)
  | resolve => exact absurd rfl hr
  | showString col row bs => exact .showString col row bs
  | showNumber col row n => exact .showString col row (dec n)
  | displayOn | displayOff | clear | scrollLeft | scrollRight | sendCommand => exact .command _ (.complete .ok)
  | backlightOn | backlightOff => exact .set _ (.command _ (.complete .ok))
  | sendData b => exact .data b (.complete .ok)
  | sendNibble p => exact .nibble p (.complete .ok)

end SendsNibbles

/-! ## What the commands strobe -/

/-- What executing a command comes to, the events after its probes being strobed. -/
def EffectsStrobed (i : Instr) (s : State) : Prop :=
  ∃ t probes es, ScanThenFrames i s t probes es ∧ Effects i s t es ∧ Strobed es

/-- RESOLVE writes nothing after its scan (40 R87). -/
theorem resolve_effectsStrobed (s : State) : EffectsStrobed .resolve s := by
  obtain ⟨t, probes, es, hscan, heff, -⟩ := hasEffects .resolve s
  have ⟨_, _, _, _, _, hnone, _⟩ := hscan
  exact ⟨t, probes, es, hscan, heff, strobed_of_no_write (hnone rfl)⟩

/-- INIT 0 runs the bring-up from the address its scan found, or sends no frame (42 R100). -/
theorem initZero_effectsStrobed (s : State) : EffectsStrobed (.init 0) s := by
  have he : exec (.init 0) s = .next (runProg (initProg 0) s) := exec_eq _ s
  obtain ⟨probes, t, hs, ⟨a, b, hlast, hr⟩ | ⟨es, hq⟩⟩ := resolver_outcome initWith { s with addrValid := false }
  · obtain ⟨es, hf⟩ := frames_initWith a t
    have hstrobed : Strobed es := ((SendsNibbles.initWith a).addsStrobes t).strobed hf.log
    have heff := effects_initWith a 0 s t hf
    rw [← hr] at hf heff
    exact ⟨_, probes, es, heff.scanThenFrames_of_scan he (hf.log.trans (congrArg (· ++ es) hs.log)) (.inr rfl)
      hs.events (.inr ⟨rfl, b, by rw [hlast, hf.addr]; rfl⟩), heff, hstrobed⟩
  · have heff : Effects (.init 0) s (runProg (initProg 0) s) es :=
      .of_quiet hq.events (hq.bl.trans hs.bl) (hq.rs.trans hs.rs) (.inl (hq.addrValid.trans hs.addrValid))
    refine ⟨_, probes, es, heff.scanThenFrames_of_scan he (hq.log.trans (congrArg (· ++ es) hs.log)) (.inr rfl)
      hs.events (.inl hq.events), heff, strobed_of_no_write fun a bs r hm => ?_⟩
    obtain ⟨w, hw⟩ := hq.events _ hm
    cases hw

/-- A command that scans nothing, turned away or not. -/
theorem exec_addsStrobes {i : Instr} (hr : i ≠ .resolve) (h0 : i ≠ .init 0) {s t : State} (he : exec i s = .next t) :
    AddsStrobes s t := by
  obtain rfl := Host.Outcome.next.inj ((exec_eq i s).symm.trans he)
  split
  · exact (SendsNibbles.complete .notInitialized).addsStrobes s
  · exact (SendsNibbles.progOf hr h0).addsStrobes s

theorem effectsStrobed (i : Instr) (s : State) : EffectsStrobed i s := by
  by_cases hr : i = .resolve
  · exact hr ▸ resolve_effectsStrobed s
  by_cases h0 : i = .init 0
  · exact h0 ▸ initZero_effectsStrobed s
  obtain ⟨t, probes, es, hscan, heff, -⟩ := hasEffects i s
  have ⟨he, hl, hnone, _⟩ := hscan
  obtain rfl := hnone hr h0
  rw [List.append_nil] at hl
  exact ⟨t, [], es, hscan, heff, (exec_addsStrobes hr h0 he).strobed hl⟩

/-- Settles O21: frames are written by whole nibbles only, each a strobe (`writes_strobe`), and a command that stops has
made a beginning of them (`effectsStrobed`). -/
theorem strobesAreNeverReordered : Obligations.StrobesAreNeverReordered := by
  intro i s
  obtain ⟨t, probes, es, hscan, heff, fs, hclear, hpre⟩ := effectsStrobed i s
  refine ⟨t, probes, es, fs, hscan, fun a bs r hm => ?_, hclear, hpre⟩
  obtain ⟨_, ⟨-, b, hbs, -⟩, -⟩ := heff.events _ hm
  exact ⟨b, hbs⟩

/-! ## A reset in mid-command, and an IDLE bridge (70 R133, R148) -/

/-- Settles O48: the step takes the reset (`step_of_reset`), and what was in progress joins the abandoned requests. -/
theorem resetAbandonsWhatIsInProgress : Obligations.ResetAbandonsWhatIsInProgress := by
  intro s r hreset hpending
  have habandoned : (takeReset s).abandoned = s.abandoned ++ [r] := by
    rw [takeReset_abandoned, hpending, Option.toList_some]
  exact ⟨takeReset s, step_of_reset hreset, ⟨rfl, rfl, rfl⟩, rfl, rfl, habandoned⟩

theorem fetch_of_no_word {s : State} (h : s.accepting = false) (hw : s.hostWords = []) : fetch s = .notYet s := by
  simp [fetch, h, hw]

/-- Settles O8: with no word offered nothing is fetched (`fetch_of_no_word`). -/
theorem idleBridgeIssuesNothing : Obligations.IdleBridgeIssuesNothing := by
  rintro s ⟨hr, hs, ha⟩ hw
  exact step_of_notYet hr hs (fetch_of_no_word ha hw)

end Sys2Proof.Machine
